-- ==== Sys2Proof/Word.lean ====
section
/-! DEFINITION. The bit vectors of the block: its ports (R15), the three number formats (R9, R12, R13), one byte of the
serialised form (R19), the transaction word (R27). -/

namespace Sys2Proof

/-- The operation select port `op_i` (R15, R26). -/
abbrev OpCode := BitVec 3

/-- The operand port `src_i` (R15). -/
abbrev Src := BitVec 64

/-- The result port `res_o` (R15). -/
abbrev Res := BitVec 64

/-- The outcome port `err_o` (R15, R30). -/
abbrev ErrCode := BitVec 2

/-- A Real48 pattern `v48` (R9, R10): each of the 2^48 patterns is a value. -/
abbrev Real48 := BitVec 48

/-- An IEEE-754 single-precision pattern `x32` (R12). -/
abbrev Single := BitVec 32

/-- An IEEE-754 double-precision pattern `x64` (R13). -/
abbrev Double := BitVec 64

/-- One byte of the serialised form (R19). -/
abbrev Byte := BitVec 8

/-- The transaction word `T` (R27). -/
abbrev TWord := BitVec 67

/-- A transaction: the pair the host drives (R16, R27). -/
structure Transaction where
  op  : OpCode
  src : Src
  deriving DecidableEq, Repr

/-- The response to a transaction: the pair the host reads (R16, R27). -/
structure Reply where
  res : Res
  err : ErrCode
  deriving DecidableEq, Repr

end Sys2Proof
end

