-- ==== Sys2Proof/Syntax.lean ====
section
/-! DEFINITION. The operations of the block as a host asks for them: one constructor per row of the operation map (R26),
each with the operand the operation reads (R28), at its own width. -/

namespace Sys2Proof

/-- One constructor per row of the opcode table. The bits of `src_i` that an operation ignores (R28) are no part of it. -/
inductive Instr where
  /-- `ENCS` (R35): encode from single precision. -/
  | encs (x : Single)
  /-- `ENCD` (R36): encode from double precision. -/
  | encd (x : Double)
  /-- `DECS` (R37): decode to single precision. -/
  | decs (v : Real48)
  /-- `DECD` (R38): decode to double precision. -/
  | decd (v : Real48)
  /-- `XSIGN` (R39): the sign field. -/
  | xsign (v : Real48)
  /-- `XEXP` (R40): the exponent field. -/
  | xexp (v : Real48)
  /-- `XFRAC` (R41): the fraction field. -/
  | xfrac (v : Real48)
  /-- `.OP7` (R31): the reserved code `0b111`; it reads no bit of `src_i`. -/
  | op7
  deriving DecidableEq, Repr

end Sys2Proof
end

