-- ==== Sys2Proof/WellFormed.lean ====
section
/-! DEFINITION. Which instructions and which transaction words are well formed. The operands of Instr carry their widths,
so no operand can be out of range; what is left to check is stated here. -/

namespace Sys2Proof

/-- R31: "No value of `src_i` is illegal for any of the seven operations: every 32-, 64- or 48-bit pattern is accepted as an
operand". The reserved code has no operand. So every instruction is well formed and can be encoded. -/
def Instr.wellFormed : Instr → Bool
  | .encs _ => true
  | .encd _ => true
  | .decs _ => true
  | .decd _ => true
  | .xsign _ => true
  | .xexp _ => true
  | .xfrac _ => true
  | .op7 => true

/-- R26: the seven operations; the reserved code "selects no operation" (R31). -/
def Instr.isOperation : Instr → Bool
  | .encs _ => true
  | .encd _ => true
  | .decs _ => true
  | .decd _ => true
  | .xsign _ => true
  | .xexp _ => true
  | .xfrac _ => true
  | .op7 => false

/-- R28: how many low bits of `src_i` the operation of a code reads. -/
def operandWidth (op : OpCode) : Nat :=
  match op with
  | 0b000#3 => 32
  | 0b001#3 => 64
  | 0b010#3 => 48
  | 0b011#3 => 48
  | 0b100#3 => 48
  | 0b101#3 => 48
  | 0b110#3 => 48
  | 0b111#3 => 0

/-- R32: a transaction word is written with its "ignored bits written as zero". A host may drive anything there (R28). -/
def Transaction.canonical (t : Transaction) : Bool :=
  decide (t.src.toNat < 2 ^ operandWidth t.op)

/-- R32: the same transaction with its ignored bits written as zero. -/
def Transaction.canonicalise (t : Transaction) : Transaction :=
  { t with src := BitVec.ofNat 64 (t.src.toNat % 2 ^ operandWidth t.op) }

/-- R27: a number is a transaction word when it fits the 67 bits of the one format. -/
def isTransactionWord (w : Nat) : Bool := decide (w < 2 ^ 67)

end Sys2Proof
end

