-- ==== Sys2Proof/Decode.lean ====
section
/-! DEFINITION. Decoding a transaction (R26 to R28), total on all 2^67 of them, and on any number: one that is no
transaction word is rejected by name. After it the encoder, from the same tables, and the opcode table's rows. -/

namespace Sys2Proof

/-- R27: the word `T = op_i, src_i`, `op` in bits 66..64 and `src` in bits 63..0. -/
def Transaction.word (t : Transaction) : TWord := t.op ++ t.src

/-- R27: the two fields of a transaction word. -/
def Transaction.ofWord (w : TWord) : Transaction :=
  ⟨w.extractLsb' 64 3, w.extractLsb' 0 64⟩

/-- R28: the single-precision operand, `src_i[31:0]`. -/
def singleOperand (src : Src) : Single := src.extractLsb' 0 32

/-- R28: the double-precision operand, `src_i[63:0]`. -/
def doubleOperand (src : Src) : Double := src

/-- R28: the Real48 operand, `src_i[47:0]`. -/
def real48Operand (src : Src) : Real48 := src.extractLsb' 0 48

/-- R26, R27: "`op_i` is decoded fully: all three bits take part, and the eighth code is reserved". -/
def decode (t : Transaction) : Instr :=
  match t.op with
  | 0b000#3 => .encs (singleOperand t.src)
  | 0b001#3 => .encd (doubleOperand t.src)
  | 0b010#3 => .decs (real48Operand t.src)
  | 0b011#3 => .decd (real48Operand t.src)
  | 0b100#3 => .xsign (real48Operand t.src)
  | 0b101#3 => .xexp (real48Operand t.src)
  | 0b110#3 => .xfrac (real48Operand t.src)
  | 0b111#3 => .op7

/-- Why a number decodes to no instruction. -/
inductive DecodeError where
  /-- R27: the one format has 67 bits, and the number has more. Safe: no port carries such a word. -/
  | widerThanT
  deriving DecidableEq, Repr

/-- Decoding any number: the instruction of the transaction word it is, or a rejection by name (R27, R33: "the length of
every transaction is 67 bits"). -/
def decodeNumber (w : Nat) : Except DecodeError Instr :=
  if isTransactionWord w then
    .ok (decode (Transaction.ofWord (BitVec.ofNat 67 w)))
  else
    .error .widerThanT

/-- The host's reading of a table row: a word of `nbits` bits, bit 0 the least significant bit of `T`, the bits above
`nbits` zero (log 11). -/
def decodeTableWord (nbits w : Nat) : Option Instr :=
  match decodeNumber (w % 2 ^ nbits) with
  | .ok i => some i
  | .error .widerThanT => none

/-- R26, R28, R32: the transaction that asks for an instruction, ignored bits written as zero. -/
def encode : Instr → Transaction
  | .encs x  => ⟨0b000#3, x.setWidth 64⟩
  | .encd x  => ⟨0b001#3, x⟩
  | .decs v  => ⟨0b010#3, v.setWidth 64⟩
  | .decd v  => ⟨0b011#3, v.setWidth 64⟩
  | .xsign v => ⟨0b100#3, v.setWidth 64⟩
  | .xexp v  => ⟨0b101#3, v.setWidth 64⟩
  | .xfrac v => ⟨0b110#3, v.setWidth 64⟩
  | .op7     => ⟨0b111#3, 0⟩

/-- The mnemonics of R26 and R32. -/
inductive Mnemonic where
  | ENCS | ENCD | DECS | DECD | XSIGN | XEXP | XFRAC | OP7
  deriving DecidableEq, Repr

/-- The row of the operation map an instruction belongs to (R26). -/
def Instr.mnemonic : Instr → Mnemonic
  | .encs _ => .ENCS
  | .encd _ => .ENCD
  | .decs _ => .DECS
  | .decd _ => .DECD
  | .xsign _ => .XSIGN
  | .xexp _ => .XEXP
  | .xfrac _ => .XFRAC
  | .op7 => .OP7

/-- A row of spec/opcode_table.json: a word belongs to it when it agrees with `pattern` on the bits of `mask`. -/
structure OpcodeRow where
  mnemonic : Mnemonic
  pattern  : TWord
  mask     : TWord
  deriving DecidableEq, Repr

/-- Whether a word belongs to a row. -/
def OpcodeRow.covers (r : OpcodeRow) (w : TWord) : Bool := w &&& r.mask == r.pattern

/-- The eight rows of spec/opcode_table.json, their `match` and `mask` copied from it (R26). -/
def opcodeTable : List OpcodeRow :=
  [ ⟨.ENCS,  0x00000000000000000#67, 0x70000000000000000#67⟩,
    ⟨.ENCD,  0x10000000000000000#67, 0x70000000000000000#67⟩,
    ⟨.DECS,  0x20000000000000000#67, 0x70000000000000000#67⟩,
    ⟨.DECD,  0x30000000000000000#67, 0x70000000000000000#67⟩,
    ⟨.XSIGN, 0x40000000000000000#67, 0x70000000000000000#67⟩,
    ⟨.XEXP,  0x50000000000000000#67, 0x70000000000000000#67⟩,
    ⟨.XFRAC, 0x60000000000000000#67, 0x70000000000000000#67⟩,
    ⟨.OP7,   0x70000000000000000#67, 0x70000000000000000#67⟩ ]

end Sys2Proof
end

