-- ==== Sys2Proof/Config.lean ====
section
/-! DEFINITION. What is fixed for one instance of the block: the format constants of R6, the constant ERR_RESULT and the
open parameter STRICT_RANGE_ERROR of R7, and the shape of the open parameter dop of R7 (surrounding software only). -/

namespace Sys2Proof
namespace Config

/-- R6: "exponent offset from IEEE single `+2`". -/
def offsetFromSingle : Int := 2

/-- R6: "exponent offset from IEEE double `-894`". -/
def offsetFromDouble : Int := -894

/-- R6: "fraction shift to and from single 16 bits". -/
def fractionShiftSingle : Nat := 16

/-- R6: "fraction shift to and from double 13 bits". -/
def fractionShiftDouble : Nat := 13

/-- R11 (derived there): the exponent bias of Real48, 127 + 2 = 1023 - 894 = 129. -/
def real48Bias : Int := 129

/-- R12: bias of the single-precision exponent. -/
def singleBias : Int := 127

/-- R13: bias of the double-precision exponent. -/
def doubleBias : Int := 1023

/-- R7, R59: `ERR_RESULT`, "decided, not open": what `res_o` carries when the operation fails. -/
def errResult : Res := 0

/-- R7: the one elaboration-time parameter of the block, OPEN in the spec. It is "fixed when the block is built and cannot
be changed by the host" (R68). DESIGN CHOICE, safe: a machine carries the parameter it was built with, so that a claim
about every state is a claim about both settings (log 3). -/
structure Build where
  /-- `STRICT_RANGE_ERROR`: the decode-to-single underflow reports RangeError in place of OverflowError. -/
  strictRangeError : Bool
  deriving DecidableEq, Repr

/-- R7: the default the table gives, `STRICT_RANGE_ERROR = false`. -/
def defaultBuild : Build := ⟨false⟩

/-- R7, R49, R51: `dop`, the "native double operation" of the surrounding software: four total functions on 64-bit
patterns and two predicates. OPEN in the spec and no part of the block: the functions of Machine/Software.lean take it as
an argument and no value is chosen for it (log 8). -/
structure Dop where
  add : Double → Double → Double
  sub : Double → Double → Double
  mul : Double → Double → Double
  div : Double → Double → Double
  gt  : Double → Double → Bool
  lt  : Double → Double → Bool

end Config
end Sys2Proof
end

