-- ==== Sys2Proof/Machine/Outcome.lean ====
section
/-! DEFINITION. How a transaction ends: Ok with a value or Err with a kind (R53, R55), and the causes the operation rules name
(R56). Types only; what they put on the ports is in Machine/Flags.lean. -/

namespace Sys2Proof.Machine

/-- R55: the three failure kinds. -/
inductive ErrKind where
  | overflowError
  | rangeError
  | illegalOp
  deriving DecidableEq, Repr

/-- R56: every cause of every failure, the `info` of the operation rules. "They are for the reader and appear on no port". -/
inductive Cause where
  /-- `ENCS` of an infinity or a NaN. -/
  | encsNonfinite
  /-- `ENCS` of a subnormal (D9, C1). -/
  | encsSubnormal
  /-- `ENCS` whose shifted exponent leaves 1..255. -/
  | encsExpRange
  /-- `ENCD` of an infinity or a NaN. -/
  | encdNonfinite
  /-- `ENCD` whose shifted exponent leaves 1..255. -/
  | encdExpRange
  /-- `DECS` of exponent field 1 or 2 (D10, C2). -/
  | decsUnderflow
  /-- The reserved code. -/
  | reservedOp
  deriving DecidableEq, Repr

/-- What the pseudocode of an operation rule ends in: a value, or `raise` with a cause. -/
inductive Attempt (w : Nat) where
  | ok (v : BitVec w)
  | raise (c : Cause)
  deriving DecidableEq, Repr

/-- R53: "Every transaction ends in exactly one of two ways: `Ok(value)` or `Err(kind)`." An Err outcome has no value. -/
inductive TxOutcome (w : Nat) where
  | ok (v : BitVec w)
  | err (k : ErrKind)
  deriving DecidableEq, Repr

end Sys2Proof.Machine
end

