-- ==== Sys2Proof/Machine/Flags.lean ====
section
/-! DEFINITION. What an outcome shows on the two output ports. The block has no flags (R8, R64): the outcome code on `err_o` is
all that is reported, for the present transaction only (R58). -/

namespace Sys2Proof.Machine

/-- R56, R37: the kind of each cause. Only the decode-to-single underflow depends on STRICT_RANGE_ERROR (R7, D11). -/
def Cause.kind (b : Config.Build) : Cause → ErrKind
  | .encsNonfinite => .overflowError
  | .encsSubnormal => .overflowError
  | .encsExpRange => .overflowError
  | .encdNonfinite => .overflowError
  | .encdExpRange => .overflowError
  | .decsUnderflow => if b.strictRangeError then .rangeError else .overflowError
  | .reservedOp => .illegalOp

/-- R30, R55: the code of a failure kind on `err_o`. -/
def ErrKind.code : ErrKind → ErrCode
  | .overflowError => 0b01#2
  | .rangeError => 0b10#2
  | .illegalOp => 0b11#2

/-- The outcome of an operation's pseudocode: its cause is forgotten, only the kind remains (R56, D27). -/
def Attempt.outcome {w : Nat} (b : Config.Build) : Attempt w → TxOutcome w
  | .ok v => .ok v
  | .raise c => .err (c.kind b)

/-- R27: `res_o` of an outcome: the value zero-extended to 64 bits (R29), or ERR_RESULT on failure (R59). -/
def TxOutcome.res {w : Nat} : TxOutcome w → Res
  | .ok v => v.setWidth 64
  | .err _ => Config.errResult

/-- R27: `err_o` of an outcome: `0b00` on success, the kind's code on failure (R30). -/
def TxOutcome.err_o {w : Nat} : TxOutcome w → ErrCode
  | .ok _ => 0b00#2
  | .err k => k.code

/-- R27: the pair the host reads. -/
def TxOutcome.reply {w : Nat} (o : TxOutcome w) : Reply := ⟨o.res, o.err_o⟩

/-- R30 read back: the outcome a reply stands for. On failure the zero of `res_o` is dropped: "it is not a result" (R59). -/
def outcomeOfReply (r : Reply) : TxOutcome 64 :=
  match r.err with
  | 0b00#2 => .ok r.res
  | 0b01#2 => .err .overflowError
  | 0b10#2 => .err .rangeError
  | 0b11#2 => .err .illegalOp

end Sys2Proof.Machine
end

