-- ==== Sys2Proof/Machine/Operands.lean ====
section
/-! DEFINITION. The fields of the three number formats (R9, R12, R13). Where an operand sits on `src_i` is in Decode.lean (R28);
there are no immediates, register numbers or addressing modes. -/

namespace Sys2Proof.Machine

/-- R9: `s48 = v48[47]`. -/
def s48 (v : Real48) : BitVec 1 := v.extractLsb' 47 1

/-- R9: `f48 = v48[46:8]`. -/
def f48 (v : Real48) : BitVec 39 := v.extractLsb' 8 39

/-- R9: `e48 = v48[7:0]`. -/
def e48 (v : Real48) : BitVec 8 := v.extractLsb' 0 8

/-- R12: `s32 = x32[31]`. -/
def s32 (x : Single) : BitVec 1 := x.extractLsb' 31 1

/-- R12: `exp32 = x32[30:23]`. -/
def exp32 (x : Single) : BitVec 8 := x.extractLsb' 23 8

/-- R12: `frac32 = x32[22:0]`. -/
def frac32 (x : Single) : BitVec 23 := x.extractLsb' 0 23

/-- R13: `s64 = x64[63]`. -/
def s64 (x : Double) : BitVec 1 := x.extractLsb' 63 1

/-- R13: `exp64 = x64[62:52]`. -/
def exp64 (x : Double) : BitVec 11 := x.extractLsb' 52 11

/-- R13: `frac64 = x64[51:0]`. -/
def frac64 (x : Double) : BitVec 52 := x.extractLsb' 0 52

end Sys2Proof.Machine
end

