-- ==== Sys2Proof/Machine/State.lean ====
section
/-! DEFINITION. State: the four ports of the block and the parameter it was built with. The spec gives the block no register,
no memory and no hidden state (R8, R18), so nothing else stands here. -/

namespace Sys2Proof.Machine

/-- Why the machine stops. No constructor: the spec gives every one of the 2^67 inputs a reply (R16, R31), a failure is
reported on `err_o` and control never leaves the host (R58). A failed transaction is a next state, never a stop
(log 5). Nobody raises a fault; there is nothing safe or unsafe about it. -/
inductive Fault where
  deriving DecidableEq, Repr

/-- Why an instruction has no meaning. -/
inductive Refusal where
  /-- Raised by an arm of `exec` whose instruction has no meaning yet; no arm of this model raises it. Safe: the model stops. -/
  | notModelled (mnemonic : String)
  deriving DecidableEq, Repr

/-- The ports of `real48_core` (R15) as they stand for one evaluation (R16), and how the instance was built (R7).
The block itself remembers nothing (R8): `op_i` and `src_i` stand because the host drives them, `res_o` and `err_o` are the
reply to the transaction last evaluated (log 1). -/
structure State where
  /-- `op_i`, in, 3 bits: operation select. -/
  op_i  : OpCode
  /-- `src_i`, in, 64 bits: source operand. -/
  src_i : Src
  /-- `res_o`, out, 64 bits: result. -/
  res_o : Res
  /-- `err_o`, out, 2 bits: outcome code. -/
  err_o : ErrCode
  /-- The elaboration-time parameter (R7, R68): no run-time state, no step writes it. -/
  build : Config.Build
  deriving DecidableEq, Repr

/-- The machine before its first transaction. The block has no reset input and no reset state (R65): the two inputs stand at
zero (DESIGN CHOICE, unsafe, log 2), the two outputs at what R16 gives for them, the parameter at its default (R7). -/
def State.reset : State :=
  { op_i := 0, src_i := 0, res_o := 0, err_o := 0, build := Config.defaultBuild }

end Sys2Proof.Machine
end

