-- ==== Sys2Proof/Machine/Ops.lean ====
section
/-! DEFINITION. The operations every meaning is written over: packing the fields of a format, and delivering an outcome on the
output ports. A failing transaction is delivered like any other: nothing is saved, no mode changes, no vector is fetched
and there is no return operation (R58), so there is no exception entry to model and none to return from. -/

namespace Sys2Proof.Machine

/-- R34: `pack48(s, e, f)` is the 48-bit vector of sign, fraction and exponent, in that order. -/
def pack48 (s : BitVec 1) (e : BitVec 8) (f : BitVec 39) : Real48 := s ++ f ++ e

/-- R12: a single-precision pattern from its fields. -/
def packSingle (s : BitVec 1) (e : BitVec 8) (f : BitVec 23) : Single := s ++ e ++ f

/-- R13: a double-precision pattern from its fields. -/
def packDouble (s : BitVec 1) (e : BitVec 11) (f : BitVec 52) : Double := s ++ e ++ f

/-- R27: the outcome of the pseudocode appears on `res_o` and `err_o`; the block writes nothing else (R8). -/
def State.deliver {w : Nat} (a : Attempt w) (s : State) : State :=
  { s with res_o := (a.outcome s.build).res, err_o := (a.outcome s.build).err_o }

/-- R16: the host presents a transaction on the two inputs. -/
def State.present (t : Transaction) (s : State) : State :=
  { s with op_i := t.op, src_i := t.src }

/-- R16: the pair the host reads. -/
def State.reply (s : State) : Reply := ⟨s.res_o, s.err_o⟩

/-- R53: the outcome the ports show, as a sum type: an Err outcome has no value. -/
def State.outcome (s : State) : TxOutcome 64 := outcomeOfReply s.reply

/-- R66 item 1, R62: the result, for a host that tests `err_o` first. A failed transaction has none (R53). -/
def State.result? (s : State) : Option Res :=
  match s.outcome with
  | .ok v => some v
  | .err _ => none

end Sys2Proof.Machine
end

