-- ==== Sys2Proof/Machine/Decoders.lean ====
section
/-! DEFINITION. The decode operations DECS (R37) and DECD (R38). Integers are mathematical integers (00_scope.md section 5). -/

namespace Sys2Proof.Machine

/-- R37: decode to single precision. The failure test is written over integers, decision D10 of the spec (conflict C2);
the low 16 fraction bits are dropped. -/
def decs (v : Real48) : Attempt 32 :=
  if e48 v = 0 then .ok 0
  else
    let eFloat : Int := (e48 v).toNat - Config.offsetFromSingle
    if eFloat ≤ 0 ∨ eFloat ≥ 255 then .raise .decsUnderflow
    else .ok (packSingle (s48 v) (BitVec.ofInt 8 eFloat) ((f48 v >>> Config.fractionShiftSingle).setWidth 23))

/-- R38: decode to double precision; "this conversion never fails". -/
def decd (v : Real48) : Double :=
  if e48 v = 0 then 0
  else
    let eDouble : Int := (e48 v).toNat - Config.offsetFromDouble
    packDouble (s48 v) (BitVec.ofInt 11 eDouble) ((f48 v).setWidth 52 <<< Config.fractionShiftDouble)

/-- `DECS` (R37). -/
def execDecs (v : Real48) (s : State) : Host.Outcome State Fault Refusal := .next (s.deliver (decs v))

/-- `DECD` (R38). -/
def execDecd (v : Real48) (s : State) : Host.Outcome State Fault Refusal := .next (s.deliver (.ok (decd v)))

end Sys2Proof.Machine
end

