-- ==== Sys2Proof/Machine/Encode.lean ====
section
/-! DEFINITION. The encode operations ENCS (R35) and ENCD (R36). Integers are mathematical integers (00_scope.md section 5). -/

namespace Sys2Proof.Machine

/-- R35: encode from single precision. The subnormal test is decision D9 of the spec (conflict C1). -/
def encs (x : Single) : Attempt 48 :=
  if exp32 x = 0 ∧ frac32 x = 0 then .ok 0
  else if exp32 x = 255 then .raise .encsNonfinite
  else if exp32 x = 0 then .raise .encsSubnormal
  else
    let e : Int := (exp32 x).toNat + Config.offsetFromSingle
    if e < 1 ∨ e > 255 then .raise .encsExpRange
    else .ok (pack48 (s32 x) (BitVec.ofInt 8 e) ((frac32 x).setWidth 39 <<< Config.fractionShiftSingle))

/-- R36: encode from double precision. The low 13 fraction bits are dropped, whatever they are (D12). -/
def encd (x : Double) : Attempt 48 :=
  if exp64 x = 0 ∧ frac64 x = 0 then .ok 0
  else if exp64 x = 2047 then .raise .encdNonfinite
  else
    let e : Int := (exp64 x).toNat + Config.offsetFromDouble
    if e < 1 ∨ e > 255 then .raise .encdExpRange
    else .ok (pack48 (s64 x) (BitVec.ofInt 8 e) ((frac64 x >>> Config.fractionShiftDouble).setWidth 39))

/-- `ENCS` (R35). -/
def execEncs (x : Single) (s : State) : Host.Outcome State Fault Refusal := .next (s.deliver (encs x))

/-- `ENCD` (R36). -/
def execEncd (x : Double) (s : State) : Host.Outcome State Fault Refusal := .next (s.deliver (encd x))

end Sys2Proof.Machine
end

