-- ==== Sys2Proof/Machine/Extract.lean ====
section
/-! DEFINITION. The field extractors XSIGN (R39), XEXP (R40), XFRAC (R41): raw fields, whatever the class of the value (D28). -/

namespace Sys2Proof.Machine

/-- R39: the sign field. -/
def xsign (v : Real48) : BitVec 1 := s48 v

/-- R40: the exponent field, "verbatim". -/
def xexp (v : Real48) : BitVec 8 := e48 v

/-- R41: the fraction field, the sign bit masked off. -/
def xfrac (v : Real48) : BitVec 39 := f48 v

/-- `XSIGN` (R39). -/
def execXsign (v : Real48) (s : State) : Host.Outcome State Fault Refusal := .next (s.deliver (.ok (xsign v)))

/-- `XEXP` (R40). -/
def execXexp (v : Real48) (s : State) : Host.Outcome State Fault Refusal := .next (s.deliver (.ok (xexp v)))

/-- `XFRAC` (R41). -/
def execXfrac (v : Real48) (s : State) : Host.Outcome State Fault Refusal := .next (s.deliver (.ok (xfrac v)))

end Sys2Proof.Machine
end

