-- ==== Sys2Proof/Machine/Reserved.lean ====
section
/-! DEFINITION. The reserved code (R31): "not a hint and not a no-op". It has an effect on the ports, and that is its meaning. -/

namespace Sys2Proof.Machine

/-- R31: the reserved code raises IllegalOp whatever `src_i` holds; there is no value, of any width. -/
def reserved : Attempt 64 := .raise .reservedOp

/-- `.OP7` (R31): "`err_o = 0b11` (`IllegalOp`), `res_o = 0`, for every value of `src_i`". -/
def execOp7 (s : State) : Host.Outcome State Fault Refusal := .next (s.deliver reserved)

end Sys2Proof.Machine
end

