-- ==== Sys2Proof/Machine/Dispatch.lean ====
section
/-! DEFINITION. One arm per constructor of Instr (R26, R27): each calls its meaning. -/

namespace Sys2Proof.Machine

def exec (i : Instr) (s : State) : Host.Outcome State Fault Refusal :=
  match i with
  | .encs x => Sys2Proof.Machine.execEncs x s
  | .encd x => Sys2Proof.Machine.execEncd x s
  | .decs v => Sys2Proof.Machine.execDecs v s
  | .decd v => Sys2Proof.Machine.execDecd v s
  | .xsign v => Sys2Proof.Machine.execXsign v s
  | .xexp v => Sys2Proof.Machine.execXexp v s
  | .xfrac v => Sys2Proof.Machine.execXfrac v s
  | .op7 => Sys2Proof.Machine.execOp7 s

end Sys2Proof.Machine
end

