-- ==== Sys2Proof/Machine/Step.lean ====
section
/-! DEFINITION. One step: one evaluation of the block on the inputs the host drives (R16). -/

namespace Sys2Proof.Machine

/-- R16: the transaction on the input ports. -/
def State.transaction (s : State) : Transaction := ⟨s.op_i, s.src_i⟩

/-- R16, R27: the block evaluates the transaction on its inputs; the reply appears on its outputs. Evaluating again without
new inputs gives the same reply (R22, R61). -/
def step (s : State) : Host.Outcome State Fault Refusal := exec (decode s.transaction) s

/-- The transaction word the host wants evaluated next is driven onto the inputs (R16, R33): there is no fetch and no program
store (R18), the inputs are where the next instruction stands (log 4). -/
def State.withFetchWord (s : State) (nbits w : Nat) : State :=
  s.present (Transaction.ofWord (BitVec.ofNat 67 (w % 2 ^ nbits)))

end Sys2Proof.Machine
end

