-- ==== Sys2Proof/Machine/Bytes.lean ====
section
/-! DEFINITION. The serialised form of a Real48 value: "exactly 6 bytes, big-endian" (R19). The ports carry vectors (R20); the
bytes are the business of whoever stores or sends the value. -/

namespace Sys2Proof.Machine

/-- R19: the six bytes, `b0` first stored, first transmitted, at the lowest address. -/
structure SixBytes where
  b0 : Byte
  b1 : Byte
  b2 : Byte
  b3 : Byte
  b4 : Byte
  b5 : Byte
  deriving DecidableEq, Repr

/-- R19: `B[i] = v48[47 - 8*i : 40 - 8*i]`. -/
def toBytes (v : Real48) : SixBytes :=
  { b0 := v.extractLsb' 40 8, b1 := v.extractLsb' 32 8, b2 := v.extractLsb' 24 8,
    b3 := v.extractLsb' 16 8, b4 := v.extractLsb' 8 8, b5 := v.extractLsb' 0 8 }

/-- R19: the reverse, the bytes joined with `B[0]` highest. -/
def ofBytes (b : SixBytes) : Real48 := b.b0 ++ b.b1 ++ b.b2 ++ b.b3 ++ b.b4 ++ b.b5

/-- R19: the bytes as a sequence, first stored first. -/
def SixBytes.toList (b : SixBytes) : List Byte := [b.b0, b.b1, b.b2, b.b3, b.b4, b.b5]

end Sys2Proof.Machine
end

