-- ==== Sys2Proof/Machine/Program.lean ====
section
/-! DEFINITION. What a host does with the block: a program is "a host-ordered list of transactions" (R33), and several instances
share nothing (R24). The block's step is the only thing that evaluates a transaction here. -/

namespace Sys2Proof.Machine

/-- R16: present one transaction and evaluate it. -/
def transact (t : Transaction) (s : State) : Host.Outcome State Fault Refusal := step (s.present t)

/-- R33: the replies to a host-ordered list of transactions, each read before the next is presented. -/
def runAll : List Transaction → State → List Reply
  | [], _ => []
  | t :: ts, s =>
    match transact t s with
    | .next s' => s'.reply :: runAll ts s'
    | .fault _ => []
    | .refused _ => []

/-- R24: several instances of the block, each with its own ports. -/
abbrev Instances := List State

/-- R24: a transaction presented to the instance numbered `k` and evaluated there; no such instance, nothing happens. -/
def transactAt (k : Nat) (t : Transaction) (us : Instances) : Instances :=
  match us[k]? with
  | none => us
  | some s =>
    match transact t s with
    | .next s' => us.set k s'
    | .fault _ => us
    | .refused _ => us

end Sys2Proof.Machine
end

