-- ==== Sys2Proof/Machine/Script.lean ====
section
/-! DEFINITION. The transaction script of R32: its lines, the transaction each line stands for, how a host runs a script on the
block, and its text. The script is the spec's own (D20) and no part of the block; what R32 does not fix about the text is
DESIGN CHOICE (log 10). -/

namespace Sys2Proof.Machine

/-- A name or a label of a script. -/
abbrev ScriptName := List Char

/-- R32: an operand is a hexadecimal literal, its digits as written, or a name. -/
inductive ScriptOperand where
  | literal (digits : List (BitVec 4))
  | name (n : ScriptName)
  deriving DecidableEq, Repr

/-- R32: `[label:] MNEMONIC operand [-> name] ; comment`. A label has no effect: there is no control transfer (R33). -/
structure ScriptLine where
  label    : Option ScriptName
  mnemonic : Mnemonic
  operand  : ScriptOperand
  bind     : Option ScriptName
  deriving DecidableEq, Repr

/-- R32: how many digits a literal of each line has: "8 digits for `ENCS`, 16 for `ENCD`, 12 for the others; `.OP7` takes 16". -/
def literalDigits : Mnemonic → Nat
  | .ENCS => 8
  | .ENCD => 16
  | .DECS => 12
  | .DECD => 12
  | .XSIGN => 12
  | .XEXP => 12
  | .XFRAC => 12
  | .OP7 => 16

/-- Why a script is ill-formed (R32), or cannot go on. -/
inductive ScriptError where
  /-- R32: a literal has not the digits of the operand's width. -/
  | literalWidth
  /-- R32: a name is not "bound by an earlier line". -/
  | unboundName (n : ScriptName)
  /-- R32: "Using a name whose line failed is an error of the script, not of the block". -/
  | failedName (n : ScriptName)
  /-- The block has no meaning for the line's operation; no line of this model ends so. -/
  | blockStopped (r : Refusal)
  deriving DecidableEq, Repr

/-- The names bound so far, the newest first: the result of the line that bound each, none where that line failed. -/
abbrev ScriptEnv := List (ScriptName × Option Res)

/-- R32: the value of a literal, first digit highest. -/
def literalValue (digits : List (BitVec 4)) : Src :=
  digits.foldl (fun acc d => (acc <<< 4) ||| d.setWidth 64) 0

/-- R32: what a line's operand stands for: a literal, or the `res_o` of the line that bound the name. -/
def ScriptLine.operandValue (l : ScriptLine) (env : ScriptEnv) : Except ScriptError Src :=
  match l.operand with
  | .literal digits => if digits.length = literalDigits l.mnemonic then .ok (literalValue digits) else .error .literalWidth
  | .name n =>
    match env.lookup n with
    | none => .error (.unboundName n)
    | some none => .error (.failedName n)
    | some (some r) => .ok r

/-- R32: the instruction of a mnemonic with an operand "truncated to the operand width of the line that uses it". -/
def instrOf (v : Src) : Mnemonic → Instr
  | .ENCS => .encs (singleOperand v)
  | .ENCD => .encd (doubleOperand v)
  | .DECS => .decs (real48Operand v)
  | .DECD => .decd (real48Operand v)
  | .XSIGN => .xsign (real48Operand v)
  | .XEXP => .xexp (real48Operand v)
  | .XFRAC => .xfrac (real48Operand v)
  | .OP7 => .op7

/-- R32: "The encoding of a line is its 67-bit word `T`", ignored bits written as zero. -/
def ScriptLine.transaction (l : ScriptLine) (v : Src) : Transaction := encode (instrOf v l.mnemonic)

/-- R32: `-> name` binds `res_o` of the line; a failed line leaves the name without a value (R53). -/
def bindResult (bind : Option ScriptName) (s : State) (env : ScriptEnv) : ScriptEnv :=
  match bind with
  | none => env
  | some n => (n, s.result?) :: env

/-- What running a script leaves: the reply of every line, the names bound, the block. -/
structure ScriptEnd where
  replies : List Reply
  env     : ScriptEnv
  last    : State
  deriving DecidableEq, Repr

/-- R32, R33: a host runs a script line by line on the block. -/
def runScript : List ScriptLine → ScriptEnv → State → Except ScriptError ScriptEnd
  | [], env, s => .ok ⟨[], env, s⟩
  | l :: ls, env, s =>
    match l.operandValue env with
    | .error e => .error e
    | .ok v =>
      match transact (l.transaction v) s with
      | .fault r => nomatch r
      | .refused r => .error (.blockStopped r)
      | .next s' =>
        match runScript ls (bindResult l.bind s' env) s' with
        | .error e => .error e
        | .ok r => .ok { r with replies := s'.reply :: r.replies }

/-- R32: the mnemonics as they are written, upper case. -/
def mnemonicTexts : List (ScriptName × Mnemonic) :=
  [ ("ENCS".toList, .ENCS), ("ENCD".toList, .ENCD), ("DECS".toList, .DECS), ("DECD".toList, .DECD),
    ("XSIGN".toList, .XSIGN), ("XEXP".toList, .XEXP), ("XFRAC".toList, .XFRAC), (".OP7".toList, .OP7) ]

/-- A hexadecimal digit, of either case (log 10). -/
def hexDigit (c : Char) : Option (BitVec 4) :=
  let n := c.toNat
  if 48 ≤ n ∧ n ≤ 57 then some (BitVec.ofNat 4 (n - 48))
  else if 65 ≤ n ∧ n ≤ 70 then some (BitVec.ofNat 4 (n - 55))
  else if 97 ≤ n ∧ n ≤ 102 then some (BitVec.ofNat 4 (n - 87))
  else none

/-- The digits of a literal, none where a character is no digit. -/
def hexDigits : List Char → Option (List (BitVec 4))
  | [] => some []
  | c :: cs =>
    match hexDigit c, hexDigits cs with
    | some d, some ds => some (d :: ds)
    | _, _ => none

/-- Which characters a name is made of (log 10): it begins with a letter or `_`, and goes on with letters, digits or `_`. -/
def isScriptName : ScriptName → Bool
  | [] => false
  | c :: cs => (c.isAlpha || c == '_') && cs.all (fun d => d.isAlphanum || d == '_')

/-- R32: an operand's text. -/
def parseOperand : List Char → Option ScriptOperand
  | '0' :: 'x' :: ds =>
    match hexDigits ds with
    | some (d :: rest) => some (.literal (d :: rest))
    | _ => none
  | n => if isScriptName n then some (.name n) else none

/-- The parts of a line between spaces or tabs (log 10). -/
def splitTokens : List Char → List Char → List (List Char)
  | [], acc => if acc.isEmpty then [] else [acc.reverse]
  | c :: cs, acc =>
    if c = ' ' ∨ c = '\t' then
      if acc.isEmpty then splitTokens cs [] else acc.reverse :: splitTokens cs []
    else splitTokens cs (c :: acc)

/-- R32: a line after its label. -/
def parseBody (label : Option ScriptName) : List (List Char) → Option ScriptLine
  | [m, o] =>
    match mnemonicTexts.lookup m, parseOperand o with
    | some mn, some op => some ⟨label, mn, op, none⟩
    | _, _ => none
  | [m, o, arrow, n] =>
    match mnemonicTexts.lookup m, parseOperand o with
    | some mn, some op => if arrow = ['-', '>'] ∧ isScriptName n then some ⟨label, mn, op, some n⟩ else none
    | _, _ => none
  | _ => none

/-- R32: the text of one line; what follows a `;` is a comment. -/
def parseScriptLine (text : List Char) : Option ScriptLine :=
  match splitTokens (text.takeWhile (fun c => c != ';')) [] with
  | [] => none
  | t :: rest =>
    if t.getLast? = some ':' then
      if isScriptName t.dropLast then parseBody (some t.dropLast) rest else none
    else parseBody none (t :: rest)

/-- One upper-case hexadecimal digit. -/
def hexChar (d : BitVec 4) : Char :=
  if d.toNat < 10 then Char.ofNat (d.toNat + 48) else Char.ofNat (d.toNat + 55)

/-- The hexadecimal digits of a vector, `n` of them, the highest first. -/
def hexText (src : Src) : Nat → List Char
  | 0 => []
  | n + 1 => hexChar ((src >>> (4 * n)).setWidth 4) :: hexText src n

/-- The bits of an operation code, the highest first. -/
def opText (op : OpCode) : List Char :=
  [2, 1, 0].map (fun k => if op.getLsbD k then '1' else '0')

/-- R32: a transaction "written `op:src` with `op` as one binary triple and `src` as 16 hex digits". -/
def transactionText (t : Transaction) : List Char := opText t.op ++ ':' :: hexText t.src 16

end Sys2Proof.Machine
end

