-- ==== Sys2Proof/Machine/Value.lean ====
section
/-! DEFINITION. What patterns mean: the classes of R10 and R14 and the numeric values of R11 and R14, as exact rationals. "No
rule of the block computes `value`; it is given so that a reader can state numeric properties" (R11). The IEEE class
patterns are the spec's own passage from general knowledge (R14, G1, log 7). -/

namespace Sys2Proof.Machine

/-- R10: the classes of a Real48 pattern. -/
inductive Real48Class where
  | canonicalZero
  | nonCanonicalZero
  | normal
  deriving DecidableEq, Repr

/-- R10: decided by the exponent field alone, the canonical zero being the all-zero pattern. -/
def real48Class (v : Real48) : Real48Class :=
  if e48 v = 0 then (if v = 0 then .canonicalZero else .nonCanonicalZero) else .normal

/-- R14: the classes of an IEEE-754 pattern. -/
inductive IeeeClass where
  | zero
  | subnormal
  | normal
  | infinity
  | nan
  deriving DecidableEq, Repr

/-- R14, for an exponent field `exp` of `w` bits and a fraction field `frac`. -/
def ieeeClass {w n : Nat} (exp : BitVec w) (frac : BitVec n) : IeeeClass :=
  if exp = 0 then (if frac = 0 then .zero else .subnormal)
  else if exp = BitVec.allOnes w then (if frac = 0 then .infinity else .nan)
  else .normal

/-- R14 for single precision. -/
def class32 (x : Single) : IeeeClass := ieeeClass (exp32 x) (frac32 x)

/-- R14 for double precision. -/
def class64 (x : Double) : IeeeClass := ieeeClass (exp64 x) (frac64 x)

/-- `(-1)^s` of R11 and R14. -/
def signFactor (s : BitVec 1) : ℚ := (-1) ^ s.toNat

/-- R14: the value of a finite pattern from its fields, none for an infinity or a NaN. -/
def ieeeValue {w n : Nat} (bias : Int) (s : BitVec 1) (exp : BitVec w) (frac : BitVec n) : Option ℚ :=
  match ieeeClass exp frac with
  | .zero => some 0
  | .subnormal => some (signFactor s * ((frac.toNat : ℚ) / 2 ^ n) * (2 : ℚ) ^ (1 - bias))
  | .normal => some (signFactor s * (1 + (frac.toNat : ℚ) / 2 ^ n) * (2 : ℚ) ^ ((exp.toNat : Int) - bias))
  | .infinity => none
  | .nan => none

/-- R14: the value of a finite single. -/
def value32 (x : Single) : Option ℚ := ieeeValue Config.singleBias (s32 x) (exp32 x) (frac32 x)

/-- R14: the value of a finite double. -/
def value64 (x : Double) : Option ℚ := ieeeValue Config.doubleBias (s64 x) (exp64 x) (frac64 x)

/-- R11: the value of a Real48 pattern: zero on exponent field 0, else with the implicit leading 1 and the bias 129. -/
def value48 (v : Real48) : ℚ :=
  if e48 v = 0 then 0
  else signFactor (s48 v) * (1 + ((f48 v).toNat : ℚ) / 2 ^ 39) * (2 : ℚ) ^ (((e48 v).toNat : Int) - Config.real48Bias)

end Sys2Proof.Machine
end

