-- ==== Sys2Proof/Machine/Software.lean ====
section
/-! DEFINITION. The surrounding software of R43 to R51: ordinary functions over 48-bit patterns, no part of the block (R4). The
native double operations are the argument `d` (R7, D25, log 8). Equality and the other orderings are not offered (R52). -/

namespace Sys2Proof.Software

open Sys2Proof.Machine

/-- R43: negation inverts bit 47, also on a zero pattern (C3). -/
def neg (v : Real48) : Real48 := v ^^^ 0x800000000000#48

/-- R44: unary plus is the identity. -/
def pos (v : Real48) : Real48 := v

/-- R45: the two classes; the spec gives them no numeric codes (N10). -/
inductive NumberClass where
  | ZERO
  | NORMAL
  deriving DecidableEq, Repr

/-- R45: only the exponent field is read. -/
def classify (v : Real48) : NumberClass := if xexp v = 0 then .ZERO else .NORMAL

/-- R46: exponent field 1, sign 0, fraction 0. -/
def smallest : Real48 := 0x000000000001#48

/-- R47: sign 0, exponent field 255, fraction all ones. -/
def largest : Real48 := 0x7FFFFFFFFFFF#48

/-- R48: exponent field 90, sign 0, fraction 0. -/
def epsilon : Real48 := 0x00000000005A#48

/-- R49: the four arithmetic operators. -/
inductive ArithOp where
  | add
  | sub
  | mul
  | div
  deriving DecidableEq, Repr

/-- R49: the native double operation of an operator. -/
def native (d : Config.Dop) : ArithOp → Double → Double → Double
  | .add => d.add
  | .sub => d.sub
  | .mul => d.mul
  | .div => d.div

/-- R49: decode both operands to double, perform the native operation, encode the result. -/
def arith (b : Config.Build) (d : Config.Dop) (op : ArithOp) (x y : Real48) : TxOutcome 48 :=
  (encd (native d op (decd x) (decd y))).outcome b

/-- R50: the in-place form: the new left operand on success, and no resulting value on failure (log 9). -/
def arithAssign (b : Config.Build) (d : Config.Dop) (op : ArithOp) (x y : Real48) : Option Real48 :=
  match arith b d op x y with
  | .ok v => some v
  | .err _ => none

/-- R51: greater-than by native double comparison. -/
def gt (d : Config.Dop) (x y : Real48) : Bool := d.gt (decd x) (decd y)

/-- R51: less-than by native double comparison. -/
def lt (d : Config.Dop) (x y : Real48) : Bool := d.lt (decd x) (decd y)

/-- A named property of `dop` for claims about R51: on finite doubles its comparisons are those of the values (R14). D25:
"A claim about `ARITH` must assume a named property of `dop`"; so must one about `GT` and `LT`. -/
def ComparesByValue (d : Config.Dop) : Prop :=
  ∀ (x y : Double) (vx vy : ℚ), value64 x = some vx → value64 y = some vy →
    (d.gt x y = true ↔ vx > vy) ∧ (d.lt x y = true ↔ vx < vy)

/-- A named property of `dop`: the "double result" column of R49's table of worked calls, for the operands of its rows.
The spec reads `dop` as IEEE-754 binary64 in round-to-nearest-even there, from general knowledge (G4). A division of zero by
zero gives "a NaN", which pattern is not said. -/
def MatchesWorkedTable (d : Config.Dop) : Prop :=
  d.add 0x3FF8000000000000#64 0x4002000000000000#64 = 0x400E000000000000#64 ∧
  d.div 0x3FF0000000000000#64 0x0000000000000000#64 = 0x7FF0000000000000#64 ∧
  class64 (d.div 0x0000000000000000#64 0x0000000000000000#64) = .nan ∧
  d.sub 0x3FF0000000000000#64 0x3FF0000000000000#64 = 0x0000000000000000#64 ∧
  d.mul 0x47DFFFFFFFFFE000#64 0x47DFFFFFFFFFE000#64 = 0x4FCFFFFFFFFFC000#64 ∧
  d.mul 0x37F0000000000000#64 0x3FE0000000000000#64 = 0x37E0000000000000#64 ∧
  d.add 0x3FF0000000000000#64 0x3D80000000000000#64 = 0x3FF0000000002000#64 ∧
  d.add 0x3FF0000000000000#64 0x3D70000000000000#64 = 0x3FF0000000001000#64 ∧
  d.mul 0xBFF0000000000000#64 0x0000000000000000#64 = 0x8000000000000000#64

end Sys2Proof.Software
end

