-- ==== Sys2Proof/Machine/SubBlocks.lean ====
section
/-! DEFINITION. The block as R15 draws it: four sub-blocks that all see `src_i`, and a selection of their outputs by `op_i`. It is
the total function `exec : (op, src) -> (res, err)` of R16, written by structure and not through Instr; the step's agreement
with it is a statement, not a definition. -/

namespace Sys2Proof.Machine

/-- R15, R26: sub-block `fp_format_converter`. Bit 1 of its code is the direction (0 encode, 1 decode) and bit 0 the IEEE
width (0 single, 1 double). -/
def fpFormatConverter (b : Config.Build) (code : BitVec 2) (src : Src) : Reply :=
  match code.getLsbD 1, code.getLsbD 0 with
  | false, false => ((encs (singleOperand src)).outcome b).reply
  | false, true  => ((encd (doubleOperand src)).outcome b).reply
  | true,  false => ((decs (real48Operand src)).outcome b).reply
  | true,  true  => ⟨decd (real48Operand src), 0⟩

/-- R15, R39: sub-block `fp_sign_extractor`, bit 47 of the port. -/
def fpSignExtractor (src : Src) : Reply := ⟨(src.extractLsb' 47 1).setWidth 64, 0⟩

/-- R15, R40: sub-block `fp_exponent_extractor`, bits 7..0 of the port. -/
def fpExponentExtractor (src : Src) : Reply := ⟨(src.extractLsb' 0 8).setWidth 64, 0⟩

/-- R15, R41: sub-block `fp_fraction_extractor`: `(v48 >> 8) & 0x7FFFFFFFFF`. -/
def fpFractionExtractor (src : Src) : Reply := ⟨(src >>> 8) &&& 0x7FFFFFFFFF#64, 0⟩

/-- R31, R59: what the ports show for the reserved code. -/
def reservedReply : Reply := ⟨Config.errResult, 0b11#2⟩

/-- R15, R16: `real48_core`. Bit 2 of `op_i` separates the converter (0) from the extractors (1) (R26). -/
def real48Core (b : Config.Build) (op : OpCode) (src : Src) : Reply :=
  if op.getLsbD 2 = false then fpFormatConverter b (op.extractLsb' 0 2) src
  else
    match op.getLsbD 1, op.getLsbD 0 with
    | false, false => fpSignExtractor src
    | false, true  => fpExponentExtractor src
    | true,  false => fpFractionExtractor src
    | true,  true  => reservedReply

end Sys2Proof.Machine
end

