-- ==== Sys2Proof/Safety.lean ====
section
/-! DEFINITION. The terms the statements use: what holds of a state whose outputs are the function of its inputs, what an
evaluation leaves alone, and what a failure shows. -/

namespace Sys2Proof.Machine

/-- R8, R16, R65: the outputs "are a function of the present inputs alone". Every step leads to such a state. -/
def State.Settled (s : State) : Prop := s.reply = real48Core s.build s.op_i s.src_i

/-- R59, R30: the ports show a failure as `res_o = 0` beside a nonzero `err_o`, or they show a success. -/
def State.FailureShowsZero (s : State) : Prop := s.err_o = 0 ∨ s.res_o = Config.errResult

/-- R7, R30, R55: RangeError is shown only by a block built with STRICT_RANGE_ERROR. -/
def State.RangeErrorOnlyWhenStrict (s : State) : Prop := s.err_o = 0b10#2 → s.build.strictRangeError = true

/-- R8: "nothing an operation writes as a side effect": the inputs and the parameter of `t` are those of `s`. -/
def State.SameInputs (s t : State) : Prop := t.op_i = s.op_i ∧ t.src_i = s.src_i ∧ t.build = s.build

end Sys2Proof.Machine
end

