-- ==== Sys2Proof/Certificates/Slice0/Obligations.lean ====
section
/-! DEFINITION. The statements for the provers. Each docstring names the rule of spec/ it formalises. Expected patterns are
written from the rules in concatenated form and not through the meanings' own functions. -/

open Sys2Proof Sys2Proof.Machine

/-! ### Decoding and the step -/

/-- R16, R27: one step is the meaning of the instruction that stands on the input ports; and `withFetchWord` puts the
instruction of a table word there. -/
def Obligations.StepRunsTheDecodedInstruction : Prop :=
  (∀ s : State, step s = exec (decode ⟨s.op_i, s.src_i⟩) s) ∧
  (∀ (s : State) (nbits w : Nat) (i : Instr), decodeTableWord nbits w = some i →
    step (s.withFetchWord nbits w) = exec i (s.withFetchWord nbits w))

/-- R26, R27: words of 95_test_vectors.md section 2.6, one for each row of the opcode table, read as T; and a number wider
than T, which is no word. -/
def Obligations.TableWordsDecodeToTheirRows : Prop :=
  decodeTableWord 72 0x0000000003FC00000 = some (.encs 0x3FC00000#32) ∧
  decodeTableWord 72 0x13FF8000000000000 = some (.encd 0x3FF8000000000000#64) ∧
  decodeTableWord 72 0x2FFFF400000000081 = some (.decs 0x400000000081#48) ∧
  decodeTableWord 72 0x30000400000000081 = some (.decd 0x400000000081#48) ∧
  decodeTableWord 72 0x4FFFF490FDAA22182 = some (.xsign 0x490FDAA22182#48) ∧
  decodeTableWord 72 0x50000C90FDB000082 = some (.xexp 0xC90FDB000082#48) ∧
  decodeTableWord 72 0x60000FFFFFFFFFFFF = some (.xfrac 0xFFFFFFFFFFFF#48) ∧
  decodeTableWord 72 0x73FF8000000000000 = some .op7 ∧
  decodeTableWord 72 0x80000000000000000 = none

/-- R28: which bits of `src_i` each operation reads, and that the bits above them "do not affect `res_o` or `err_o`". -/
def Obligations.OnlyTheOperandBitsAreRead : Prop :=
  (∀ src : Src,
    decode ⟨0b000#3, src⟩ = .encs (src.setWidth 32) ∧
    decode ⟨0b001#3, src⟩ = .encd src ∧
    decode ⟨0b010#3, src⟩ = .decs (src.setWidth 48) ∧
    decode ⟨0b011#3, src⟩ = .decd (src.setWidth 48) ∧
    decode ⟨0b100#3, src⟩ = .xsign (src.setWidth 48) ∧
    decode ⟨0b101#3, src⟩ = .xexp (src.setWidth 48) ∧
    decode ⟨0b110#3, src⟩ = .xfrac (src.setWidth 48) ∧
    decode ⟨0b111#3, src⟩ = .op7) ∧
  [0b000#3, 0b001#3, 0b010#3, 0b011#3, 0b100#3, 0b101#3, 0b110#3, 0b111#3].map operandWidth =
    [32, 64, 48, 48, 48, 48, 48, 0] ∧
  (∀ (s : State) (src' : Src),
    s.src_i.toNat % 2 ^ operandWidth s.op_i = src'.toNat % 2 ^ operandWidth s.op_i →
    ∃ t u : State, step s = .next t ∧ step { s with src_i := src' } = .next u ∧ t.res_o = u.res_o ∧ t.err_o = u.err_o)

/-- The decoder loses no bit an operation reads, and the encoder writes the ignored bits as zero (R27, R28, R32): decoding and
encoding are inverse on the canonical transactions, and the word and the pair are the same thing. -/
def Obligations.DecodeAndEncodeAgree : Prop :=
  (∀ i : Instr, decode (encode i) = i ∧ (encode i).canonical = true) ∧
  (∀ t : Transaction, encode (decode t) = t.canonicalise) ∧
  (∀ t : Transaction, t.canonical = true → encode (decode t) = t) ∧
  (∀ w : TWord, (Transaction.ofWord w).word = w) ∧
  (∀ w : Nat, 2 ^ 67 ≤ w → decodeNumber w = .error .widerThanT)

/-- R26: "`op_i` is decoded fully": every transaction word belongs to exactly one row of the opcode table, and it is the row of
the instruction the decoder reads. -/
def Obligations.EveryWordHasExactlyOneRow : Prop :=
  ∀ w : TWord, ∃ r ∈ opcodeTable, r.covers w = true ∧ r.mnemonic = (decode (Transaction.ofWord w)).mnemonic ∧
    ∀ r' ∈ opcodeTable, r'.covers w = true → r' = r

/-! ### The eight rows: reply, frame and completion in one equality -/

/-- R35: ENCS on every operand. Everything but the two outputs stands as it was. -/
def Obligations.EncsRepliesByItsRule : Prop :=
  (∀ (x : Single) (s : State), exec (.encs x) s = .next
    (if x.extractLsb' 0 31 = 0 then { s with res_o := 0, err_o := 0b00#2 }
     else if 1 ≤ (x.extractLsb' 23 8).toNat ∧ (x.extractLsb' 23 8).toNat ≤ 253 then
       { s with
         res_o := 0#16 ++ x.extractLsb' 31 1 ++ x.extractLsb' 0 23 ++ 0#16 ++ (x.extractLsb' 23 8 + 2#8)
         err_o := 0b00#2 }
     else { s with res_o := 0, err_o := 0b01#2 })) ∧
  (∀ s : State, s.op_i = 0b000#3 → step s = exec (.encs (s.src_i.setWidth 32)) s)

/-- R36: ENCD on every operand: succeeds exactly on the zeros and on exponent fields 895 to 1149; truncates 13 bits. -/
def Obligations.EncdRepliesByItsRule : Prop :=
  (∀ (x : Double) (s : State), exec (.encd x) s = .next
    (if x.extractLsb' 0 63 = 0 then { s with res_o := 0, err_o := 0b00#2 }
     else if 895 ≤ (x.extractLsb' 52 11).toNat ∧ (x.extractLsb' 52 11).toNat ≤ 1149 then
       { s with
         res_o := 0#16 ++ x.extractLsb' 63 1 ++ x.extractLsb' 13 39 ++ (x.extractLsb' 52 11 - 894#11).setWidth 8
         err_o := 0b00#2 }
     else { s with res_o := 0, err_o := 0b01#2 })) ∧
  (∀ s : State, s.op_i = 0b001#3 → step s = exec (.encd s.src_i) s)

/-- R37: DECS on every operand, with the kind of its failure by STRICT_RANGE_ERROR (R7). -/
def Obligations.DecsRepliesByItsRule : Prop :=
  (∀ (v : Real48) (s : State), exec (.decs v) s = .next
    (if v.extractLsb' 0 8 = 0 then { s with res_o := 0, err_o := 0b00#2 }
     else if v.extractLsb' 0 8 = 1 ∨ v.extractLsb' 0 8 = 2 then
       { s with res_o := 0, err_o := if s.build.strictRangeError then 0b10#2 else 0b01#2 }
     else
       { s with
         res_o := 0#32 ++ v.extractLsb' 47 1 ++ (v.extractLsb' 0 8 - 2#8) ++ v.extractLsb' 24 23
         err_o := 0b00#2 })) ∧
  (∀ s : State, s.op_i = 0b010#3 → step s = exec (.decs (s.src_i.setWidth 48)) s)

/-- R38: DECD on every operand; it never fails. -/
def Obligations.DecdRepliesByItsRule : Prop :=
  (∀ (v : Real48) (s : State), exec (.decd v) s = .next
    { s with
      res_o :=
        if v.extractLsb' 0 8 = 0 then 0
        else v.extractLsb' 47 1 ++ ((v.extractLsb' 0 8).setWidth 11 + 894#11) ++ v.extractLsb' 8 39 ++ 0#13
      err_o := 0b00#2 }) ∧
  (∀ s : State, s.op_i = 0b011#3 → step s = exec (.decd (s.src_i.setWidth 48)) s)

/-- R39: XSIGN gives bit 47, whatever the class of the value and whatever `src_i[63:48]` holds. -/
def Obligations.XsignRepliesByItsRule : Prop :=
  (∀ (v : Real48) (s : State), exec (.xsign v) s = .next
    { s with res_o := if v.getLsbD 47 then 1 else 0, err_o := 0b00#2 }) ∧
  (∀ v : Real48, v.getLsbD 47 = (toBytes v).b0.getLsbD 7) ∧
  (∀ s : State, s.op_i = 0b100#3 → step s = .next
    { s with res_o := if s.src_i.getLsbD 47 then 1 else 0, err_o := 0b00#2 })

/-- R40: XEXP gives the last byte verbatim. -/
def Obligations.XexpRepliesByItsRule : Prop :=
  (∀ (v : Real48) (s : State), exec (.xexp v) s = .next
    { s with res_o := BitVec.ofNat 64 (v.toNat % 256), err_o := 0b00#2 }) ∧
  (∀ v : Real48, v.toNat % 256 = (toBytes v).b5.toNat) ∧
  (∀ s : State, s.op_i = 0b101#3 → step s = .next { s with res_o := s.src_i &&& 0xFF#64, err_o := 0b00#2 })

/-- R41: XFRAC gives `(v48 >> 8) & 0x7FFFFFFFFF`; the sign never appears in the result. -/
def Obligations.XfracRepliesByItsRule : Prop :=
  (∀ (v : Real48) (s : State), exec (.xfrac v) s = .next
    { s with res_o := ((v >>> 8) &&& 0x7FFFFFFFFF#48).setWidth 64, err_o := 0b00#2 }) ∧
  (∀ s : State, s.op_i = 0b110#3 → step s = .next
    { s with res_o := (s.src_i >>> 8) &&& 0x7FFFFFFFFF#64, err_o := 0b00#2 })

/-- R31: the reserved code shows IllegalOp and a zero `res_o`, for every value of `src_i`; no operand of another operation is
illegal: it leads to a result or to an error outcome other than IllegalOp. -/
def Obligations.ReservedCodeRepliesIllegalOp : Prop :=
  (∀ s : State, exec .op7 s = .next { s with res_o := 0, err_o := 0b11#2 }) ∧
  (∀ s : State, s.op_i = 0b111#3 → ∃ t, step s = .next t ∧ t.res_o = 0 ∧ t.err_o = 0b11#2 ∧ t.outcome = .err .illegalOp) ∧
  (∀ (i : Instr) (s : State), i ≠ .op7 → ∃ t, exec i s = .next t ∧ t.err_o ≠ 0b11#2)

/-! ### Outcomes -/

/-- R56: every cause, its condition on the operand and its kind; and R30, the code the kind shows. -/
def Obligations.CausesAndKindsOfFailure : Prop :=
  (∀ x : Single,
    (encs x = .raise .encsNonfinite ↔ (exp32 x).toNat = 255) ∧
    (encs x = .raise .encsSubnormal ↔ (exp32 x).toNat = 0 ∧ (frac32 x).toNat ≠ 0) ∧
    (encs x = .raise .encsExpRange ↔ (exp32 x).toNat = 254) ∧
    (∀ c, encs x = .raise c → c = .encsNonfinite ∨ c = .encsSubnormal ∨ c = .encsExpRange)) ∧
  (∀ x : Double,
    (encd x = .raise .encdNonfinite ↔ (exp64 x).toNat = 2047) ∧
    (encd x = .raise .encdExpRange ↔
      ¬ ((exp64 x).toNat = 0 ∧ (frac64 x).toNat = 0) ∧
        ((exp64 x).toNat ≤ 894 ∨ (1150 ≤ (exp64 x).toNat ∧ (exp64 x).toNat ≤ 2046))) ∧
    (∀ c, encd x = .raise c → c = .encdNonfinite ∨ c = .encdExpRange)) ∧
  (∀ v : Real48,
    (decs v = .raise .decsUnderflow ↔ (e48 v).toNat = 1 ∨ (e48 v).toNat = 2) ∧
    (∀ c, decs v = .raise c → c = .decsUnderflow)) ∧
  reserved = .raise .reservedOp ∧
  (∀ (b : Config.Build) (c : Cause), c.kind b =
    if c = .reservedOp then .illegalOp
    else if c = .decsUnderflow ∧ b.strictRangeError = true then .rangeError
    else .overflowError) ∧
  ErrKind.overflowError.code = 1 ∧ ErrKind.rangeError.code = 2 ∧ ErrKind.illegalOp.code = 3

/-- R59, R53, R30: after every step, a nonzero `err_o` stands beside a zero `res_o`, and then there is no result to read; on
`err_o = 0` the result is `res_o`. -/
def Obligations.FailedTransactionHasNoResult : Prop :=
  ∀ s : State, ∃ t : State, step s = .next t ∧
    (t.err_o ≠ 0b00#2 → t.res_o = 0 ∧ t.result? = none) ∧
    (t.err_o = 0b00#2 → t.result? = some t.res_o)

/-- R7, D11: STRICT_RANGE_ERROR changes the kind of the decode-to-single underflow and "Nothing else changes". -/
def Obligations.StrictSettingChangesOnlyTheUnderflowKind : Prop :=
  ∀ (i : Instr) (s : State), ∃ t u : State,
    exec i { s with build := ⟨false⟩ } = .next t ∧ exec i { s with build := ⟨true⟩ } = .next u ∧
    u.res_o = t.res_o ∧ t.err_o ≠ 0b10#2 ∧
    ((∃ v : Real48, i = .decs v ∧ (v.extractLsb' 0 8 = 1 ∨ v.extractLsb' 0 8 = 2)) →
      t.err_o = 0b01#2 ∧ u.err_o = 0b10#2) ∧
    (¬ (∃ v : Real48, i = .decs v ∧ (v.extractLsb' 0 8 = 1 ∨ v.extractLsb' 0 8 = 2)) → u.err_o = t.err_o)

/-! ### The whole machine -/

/-- R8: an operation writes the two outputs and nothing else. -/
def Obligations.OperationsWriteOnlyTheOutputs : Prop :=
  ∀ (i : Instr) (s t : State), exec i s = .next t → s.SameInputs t

/-- R58, R23: `err_o` is not sticky and the block remembers nothing: what the outputs showed before does not matter. -/
def Obligations.EarlierOutputsDoNotMatter : Prop :=
  ∀ (i : Instr) (s : State) (r : Res) (e : ErrCode), ∃ t : State,
    exec i { s with res_o := r, err_o := e } = .next t ∧ exec i s = .next t

/-- R15, R16: stepping the machine gives what the four sub-blocks and the selection by `op_i` give, on all 2^67 inputs. -/
def Obligations.StepAgreesWithTheSubBlocks : Prop :=
  ∀ s : State, step s = .next
    { s with res_o := (real48Core s.build s.op_i s.src_i).res, err_o := (real48Core s.build s.op_i s.src_i).err }

/-- R16, R59, R7: a step from ANY state answers, and the state it leads to meets the machine's invariant: the outputs are the
function of the inputs, a failure shows zero, RangeError is shown only by a strict build. So every step keeps the invariant. -/
def Obligations.EveryStepLeadsToTheInvariant : Prop :=
  ∀ s : State, ∃ t : State, step s = .next t ∧
    t.Settled ∧ t.FailureShowsZero ∧ t.RangeErrorOnlyWhenStrict ∧ s.SameInputs t

/-- The invariant holds at reset. That the inputs stand at zero there is the model's choice (log 2; R65: the block has no
reset state); that the parameter is at its default is R7. -/
def Obligations.ResetMeetsTheInvariant : Prop :=
  State.reset.Settled ∧ State.reset.FailureShowsZero ∧ State.reset.RangeErrorOnlyWhenStrict ∧
  State.reset.build.strictRangeError = false

/-- R22, R61: the same input evaluated twice gives the same output. -/
def Obligations.EvaluatingTwiceChangesNothing : Prop :=
  ∀ s t : State, step s = .next t → step t = .next t

/-- R23: each transaction of a program has one reply, which no other transaction, their number or their order changes. -/
def Obligations.TransactionsAreIndependent : Prop :=
  ∀ (b : Config.Build) (t : Transaction), ∃ r : Reply, ∀ (before after : List Transaction) (s : State), s.build = b →
    (runAll (before ++ t :: after) s)[before.length]? = some r ∧
    (runAll (before ++ t :: after) s).length = (before ++ t :: after).length

/-- R24, "Several instances of the block share nothing": a transaction on one instance is evaluated there and leaves every
other instance as it was. That instances are a list of states, and that a transaction on an instance the list does not hold
changes nothing, is the model's choice (log 21). -/
def Obligations.InstancesShareNothing : Prop :=
  ∀ (k : Nat) (t : Transaction) (us : Instances),
    (∀ j : Nat, j ≠ k → (transactAt k t us)[j]? = us[j]?) ∧
    (∀ s : State, us[k]? = some s → ∃ u, transact t s = .next u ∧ (transactAt k t us)[k]? = some u)

/-! ### Formats -/

/-- R9, R12, R13: the fields of the three formats, joined in the order of the layout, are the pattern. -/
def Obligations.FieldsCoverTheFormats : Prop :=
  (∀ v : Real48, v = s48 v ++ f48 v ++ e48 v ∧
    v.toNat = (s48 v).toNat * 2 ^ 47 + (f48 v).toNat * 2 ^ 8 + (e48 v).toNat) ∧
  (∀ x : Single, x = s32 x ++ exp32 x ++ frac32 x ∧
    x.toNat = (s32 x).toNat * 2 ^ 31 + (exp32 x).toNat * 2 ^ 23 + (frac32 x).toNat) ∧
  (∀ x : Double, x = s64 x ++ exp64 x ++ frac64 x ∧
    x.toNat = (s64 x).toNat * 2 ^ 63 + (exp64 x).toNat * 2 ^ 52 + (frac64 x).toNat)

/-- R34, R42: packing is the shift-and-or form, and the packing step and the extractors are inverse both ways. -/
def Obligations.PackAndExtractorsAreInverse : Prop :=
  (∀ (s : BitVec 1) (e : BitVec 8) (f : BitVec 39),
    pack48 s e f = (s.setWidth 48 <<< 47) ||| (f.setWidth 48 <<< 8) ||| e.setWidth 48 ∧
    xsign (pack48 s e f) = s ∧ xexp (pack48 s e f) = e ∧ xfrac (pack48 s e f) = f) ∧
  (∀ v : Real48, pack48 (xsign v) (xexp v) (xfrac v) = v)

/-- R19: the six bytes, big-endian: `B[i] = v48[47 - 8*i : 40 - 8*i]`, and the bijection both ways. -/
def Obligations.SixBytesAreBigEndian : Prop :=
  (∀ (v : Real48) (i : Nat), i < 6 → (toBytes v).toList[i]? = some (v.extractLsb' (40 - 8 * i) 8)) ∧
  (∀ v : Real48, ofBytes (toBytes v) = v) ∧
  (∀ b : SixBytes, toBytes (ofBytes b) = b)

/-- R10, R35, R36, R37, R38 (law L-8): no encoder produces a non-canonical zero; no decoder produces a subnormal, an infinity, a
NaN or a negative zero. -/
def Obligations.NoSpecialResults : Prop :=
  (∀ (x : Single) (s t : State), exec (.encs x) s = .next t → t.err_o = 0b00#2 →
    real48Class (t.res_o.setWidth 48) ≠ .nonCanonicalZero) ∧
  (∀ (x : Double) (s t : State), exec (.encd x) s = .next t → t.err_o = 0b00#2 →
    real48Class (t.res_o.setWidth 48) ≠ .nonCanonicalZero) ∧
  (∀ (v : Real48) (s t : State), exec (.decs v) s = .next t → t.err_o = 0b00#2 →
    t.res_o = 0 ∨ class32 (t.res_o.setWidth 32) = .normal) ∧
  (∀ (v : Real48) (s t : State), exec (.decd v) s = .next t → t.res_o = 0 ∨ class64 t.res_o = .normal)

/-! ### Round trips -/

/-- Law L-2 (R36, R38): encoding a decoded double gives the pattern back; a zero comes back canonical. -/
def Obligations.EncdUndoesDecd : Prop :=
  ∀ (v : Real48) (s t : State), exec (.decd v) s = .next t →
    exec (.encd t.res_o) t = .next
      { t with res_o := if v.extractLsb' 0 8 = 0 then 0 else v.setWidth 64, err_o := 0b00#2 }

/-- Law L-3, source properties S1 and S2 (R36, R38): decoding an encoded double gives it back with its low 13 bits cleared. -/
def Obligations.DecdOfEncdClearsThirteenBits : Prop :=
  ∀ (x : Double) (s t : State), exec (.encd x) s = .next t → t.err_o = 0b00#2 →
    exec (.decd (t.res_o.setWidth 48)) t = .next
      { t with res_o := if x.extractLsb' 0 63 = 0 then 0 else x &&& 0xFFFFFFFFFFFFE000#64, err_o := 0b00#2 }

/-- Law L-4 (R35, R37): decoding an encoded single gives it back; a zero comes back positive. -/
def Obligations.DecsUndoesEncs : Prop :=
  ∀ (x : Single) (s t : State), exec (.encs x) s = .next t → t.err_o = 0b00#2 →
    exec (.decs (t.res_o.setWidth 48)) t = .next
      { t with res_o := if x.extractLsb' 0 31 = 0 then 0 else x.setWidth 64, err_o := 0b00#2 }

/-- Law L-5 (R35, R37): encoding a decoded single gives the pattern back with its low 16 fraction bits cleared. -/
def Obligations.EncsOfDecsClearsSixteenBits : Prop :=
  ∀ (v : Real48) (s t : State), 3 ≤ (v.extractLsb' 0 8).toNat → exec (.decs v) s = .next t →
    exec (.encs (t.res_o.setWidth 32)) t = .next
      { t with res_o := (v &&& 0xFFFFFF0000FF#48).setWidth 64, err_o := 0b00#2 }

/-- Law L-6 (R6, R11): a single taken through Real48 to double is widened exactly, and that double encodes to the same
Real48 pattern: the two exponent offsets agree. -/
def Obligations.OffsetsAgreeThroughReal48 : Prop :=
  ∀ (x : Single) (s t : State), exec (.encs x) s = .next t → t.err_o = 0b00#2 → x.extractLsb' 0 31 ≠ 0 →
    exec (.decd (t.res_o.setWidth 48)) t = .next
      { t with
        res_o := x.extractLsb' 31 1 ++ ((x.extractLsb' 23 8).setWidth 11 + 896#11) ++ x.extractLsb' 0 23 ++ 0#29
        err_o := 0b00#2 } ∧
    exec (.encd (x.extractLsb' 31 1 ++ ((x.extractLsb' 23 8).setWidth 11 + 896#11) ++ x.extractLsb' 0 23 ++ 0#29)) t = .next t

/-! ### Numeric values -/

/-- R38 with R11 and R14: decoding to double is exact. -/
def Obligations.DecdKeepsTheValue : Prop :=
  ∀ (v : Real48) (s : State), ∃ t : State, exec (.decd v) s = .next t ∧ value64 t.res_o = some (value48 v)

/-- R35 with R11 and R14: encoding from single is exact whenever it succeeds. -/
def Obligations.EncsKeepsTheValue : Prop :=
  ∀ (x : Single) (s t : State), exec (.encs x) s = .next t → t.err_o = 0b00#2 →
    value32 x = some (value48 (t.res_o.setWidth 48))

/-- R36 with R11 and R14: encoding from double truncates toward zero, by less than one unit in the last fraction place. -/
def Obligations.EncdTruncatesTowardZero : Prop :=
  ∀ (x : Double) (s t : State), exec (.encd x) s = .next t → t.err_o = 0b00#2 →
    ∃ q : ℚ, value64 x = some q ∧
      0 ≤ q * value48 (t.res_o.setWidth 48) ∧
      |value48 (t.res_o.setWidth 48)| ≤ |q| ∧
      |q| - |value48 (t.res_o.setWidth 48)| <
        (2 : ℚ) ^ (((t.res_o.extractLsb' 0 8).toNat : Int) - 129 - 39)

/-- R37 with R11 and R14: decoding to single truncates toward zero, by less than one unit in the last place of a single. -/
def Obligations.DecsTruncatesTowardZero : Prop :=
  ∀ (v : Real48) (s t : State), exec (.decs v) s = .next t → t.err_o = 0b00#2 →
    ∃ q : ℚ, value32 (t.res_o.setWidth 32) = some q ∧
      0 ≤ q * value48 v ∧ |q| ≤ |value48 v| ∧
      |value48 v| - |q| < (2 : ℚ) ^ (((v.extractLsb' 0 8).toNat : Int) - 129 - 23)

/-- R11: the smallest and the largest magnitude of a normal Real48 value, and that both are reached. -/
def Obligations.RangeOfNormalValues : Prop :=
  (∀ v : Real48, v.extractLsb' 0 8 ≠ 0 →
    (2 : ℚ) ^ (-128 : Int) ≤ |value48 v| ∧ |value48 v| ≤ (2 - (2 : ℚ) ^ (-39 : Int)) * (2 : ℚ) ^ (126 : Int)) ∧
  value48 Software.smallest = (2 : ℚ) ^ (-128 : Int) ∧
  value48 Software.largest = (2 - (2 : ℚ) ^ (-39 : Int)) * (2 : ℚ) ^ (126 : Int) ∧
  value48 0x000000000181#48 - value48 0x000000000081#48 = value48 Software.epsilon

/-! ### The surrounding software -/

/-- R43, R44: negation inverts the sign field and leaves the other 47 bits, twice is the identity, and the value changes
sign; unary plus is the identity. Negating an encoded nonzero double is encoding its negation (law L-11, source property S5 as
C3 restricts it). At zero the patterns differ and the values agree: the negated zero decodes to `+0.0` and classifies ZERO. -/
def Obligations.SignOperationsOfTheSoftware : Prop :=
  (∀ v : Real48, xsign (Software.neg v) = ~~~ xsign v ∧ xexp (Software.neg v) = xexp v ∧ xfrac (Software.neg v) = xfrac v ∧
    Software.neg (Software.neg v) = v ∧ value48 (Software.neg v) = - value48 v ∧ Software.pos v = v) ∧
  (∀ (x : Double) (s t : State), x.extractLsb' 0 63 ≠ 0 → exec (.encd x) s = .next t → t.err_o = 0b00#2 →
    exec (.encd (x ^^^ 0x8000000000000000#64)) s = .next
      { t with res_o := (Software.neg (t.res_o.setWidth 48)).setWidth 64 }) ∧
  Software.neg 0 = 0x800000000000#48 ∧ encd 0#64 = .ok 0 ∧ encd 0x8000000000000000#64 = .ok 0 ∧
  decd (Software.neg 0) = 0 ∧ Software.classify (Software.neg 0) = .ZERO ∧
  value48 (Software.neg 0) = value48 0 ∧ Software.neg 0x400000000081#48 = 0xC00000000081#48

/-- R45, R10, R40: the class is ZERO exactly when the exponent field is 0, and exactly when the value is zero. -/
def Obligations.ClassifyReadsTheExponentField : Prop :=
  ∀ v : Real48, (Software.classify v = .ZERO ↔ v.extractLsb' 0 8 = 0) ∧
    (Software.classify v = .NORMAL ↔ v.extractLsb' 0 8 ≠ 0) ∧ (Software.classify v = .ZERO ↔ value48 v = 0)

/-- R46, R47, R48: the fields, the bytes, the values and the decodings of the three named constants. -/
def Obligations.NamedConstants : Prop :=
  Software.smallest = pack48 0 1 0 ∧ Software.largest = pack48 0 255 0x7FFFFFFFFF#39 ∧ Software.epsilon = pack48 0 90 0 ∧
  (toBytes Software.smallest).toList = [0x00, 0x00, 0x00, 0x00, 0x00, 0x01] ∧
  (toBytes Software.largest).toList = [0x7F, 0xFF, 0xFF, 0xFF, 0xFF, 0xFF] ∧
  (toBytes Software.epsilon).toList = [0x00, 0x00, 0x00, 0x00, 0x00, 0x5A] ∧
  value48 Software.smallest = (2 : ℚ) ^ (-128 : Int) ∧
  value48 Software.largest = (2 - (2 : ℚ) ^ (-39 : Int)) * (2 : ℚ) ^ (126 : Int) ∧
  value48 Software.epsilon = (2 : ℚ) ^ (-39 : Int) ∧
  (∀ s : State,
    exec (.decd Software.smallest) s = .next { s with res_o := 0x37F0000000000000#64, err_o := 0b00#2 } ∧
    exec (.decd Software.largest) s = .next { s with res_o := 0x47DFFFFFFFFFE000#64, err_o := 0b00#2 } ∧
    exec (.decd Software.epsilon) s = .next { s with res_o := 0x3D80000000000000#64, err_o := 0b00#2 } ∧
    exec (.decs Software.largest) s = .next { s with res_o := 0x7EFFFFFF#64, err_o := 0b00#2 } ∧
    exec (.decs Software.epsilon) s = .next { s with res_o := 0x2C000000#64, err_o := 0b00#2 } ∧
    ∃ t, exec (.decs Software.smallest) s = .next t ∧ t.result? = none)

/-- R49, R50: arithmetic is two transactions DECD, the native operation and a transaction ENCD; it fails exactly when that
ENCD fails, with OverflowError; the in-place form has a resulting value exactly on success. That each of the four operators
has an in-place form is the model's choice (log 9): R50 does not say which two have one. The last clause is the outcome
column of R49's table of worked calls, for any native operations that give its double-result column. -/
def Obligations.ArithmeticIsPromotion : Prop :=
  (∀ (d : Config.Dop) (op : Software.ArithOp) (x y : Real48) (s : State), ∃ tx ty r : State,
    exec (.decd x) s = .next tx ∧ exec (.decd y) s = .next ty ∧
    exec (.encd (Software.native d op tx.res_o ty.res_o)) s = .next r ∧
    Software.arith s.build d op x y =
      (if r.err_o = 0b00#2 then .ok (r.res_o.setWidth 48) else .err .overflowError) ∧
    Software.arithAssign s.build d op x y = (if r.err_o = 0b00#2 then some (r.res_o.setWidth 48) else none)) ∧
  (∀ (b : Config.Build) (d : Config.Dop), Software.MatchesWorkedTable d →
    Software.arith b d .add 0x400000000081#48 0x100000000082#48 = .ok 0x700000000082#48 ∧
    Software.arith b d .div 0x000000000081#48 0x000000000000#48 = .err .overflowError ∧
    Software.arith b d .div 0x000000000000#48 0x000000000000#48 = .err .overflowError ∧
    Software.arith b d .sub 0x000000000081#48 0x000000000081#48 = .ok 0x000000000000#48 ∧
    Software.arith b d .mul 0x7FFFFFFFFFFF#48 0x7FFFFFFFFFFF#48 = .err .overflowError ∧
    Software.arith b d .mul 0x000000000001#48 0x000000000080#48 = .err .overflowError ∧
    Software.arith b d .add 0x000000000081#48 0x00000000005A#48 = .ok 0x000000000181#48 ∧
    Software.arith b d .add 0x000000000081#48 0x000000000059#48 = .ok 0x000000000081#48 ∧
    Software.arith b d .mul 0x800000000081#48 0x000000000000#48 = .ok 0x000000000000#48)

/-- R51: greater-than and less-than are the native comparisons of the two decodings. For native comparisons that compare finite
doubles by value, the order of Real48 patterns is the numeric order of their values, and every zero pattern is neither above
nor below another. -/
def Obligations.OrderFollowsTheValues : Prop :=
  (∀ (d : Config.Dop) (x y : Real48) (s : State), ∃ tx ty : State,
    exec (.decd x) s = .next tx ∧ exec (.decd y) s = .next ty ∧
    Software.gt d x y = d.gt tx.res_o ty.res_o ∧ Software.lt d x y = d.lt tx.res_o ty.res_o) ∧
  (∀ d : Config.Dop, Software.ComparesByValue d →
    (∀ x y : Real48, (Software.gt d x y = true ↔ value48 x > value48 y) ∧
      (Software.lt d x y = true ↔ value48 x < value48 y)) ∧
    (∀ x y : Real48, x.extractLsb' 0 8 = 0 → y.extractLsb' 0 8 = 0 →
      Software.gt d x y = false ∧ Software.lt d x y = false) ∧
    Software.lt d Software.smallest Software.largest = true ∧ Software.gt d Software.smallest 0 = true)

/-! ### The transaction script -/

/-- R32, R53: in a script, a name stands for the `res_o` of the line that bound it, cut to the width of the operand that uses
it; using the name of a failed line makes the script ill-formed. -/
def Obligations.ScriptNamesStandForResults : Prop :=
  ∀ (l l' : ScriptLine) (n : ScriptName) (digits : List (BitVec 4)) (s t : State),
    l.operand = .literal digits → digits.length = literalDigits l.mnemonic → l.bind = some n → l'.operand = .name n →
    transact (l.transaction (literalValue digits)) s = .next t →
    (t.err_o ≠ 0b00#2 → runScript [l, l'] [] s = .error (.failedName n)) ∧
    (t.err_o = 0b00#2 → ∃ (u : State) (e : ScriptEnd),
      transact (l'.transaction t.res_o) t = .next u ∧
      runScript [l, l'] [] s = .ok e ∧ e.replies = [t.reply, u.reply])
end

