-- ==== Sys2Proof/Laws/Decode.lean ====
section
/-! SUPPORT. Decoding and operand widths, one equation per operation code (R26, R28), and the extraction lemmas they need. -/

namespace Sys2Proof

@[simp] theorem operandWidth_encs : operandWidth 0b000#3 = 32 := rfl
@[simp] theorem operandWidth_encd : operandWidth 0b001#3 = 64 := rfl
@[simp] theorem operandWidth_decs : operandWidth 0b010#3 = 48 := rfl
@[simp] theorem operandWidth_decd : operandWidth 0b011#3 = 48 := rfl
@[simp] theorem operandWidth_xsign : operandWidth 0b100#3 = 48 := rfl
@[simp] theorem operandWidth_xexp : operandWidth 0b101#3 = 48 := rfl
@[simp] theorem operandWidth_xfrac : operandWidth 0b110#3 = 48 := rfl
@[simp] theorem operandWidth_op7 : operandWidth 0b111#3 = 0 := rfl

@[simp] theorem decode_encs (src : Src) : decode ⟨0b000#3, src⟩ = .encs (singleOperand src) := rfl
@[simp] theorem decode_encd (src : Src) : decode ⟨0b001#3, src⟩ = .encd (doubleOperand src) := rfl
@[simp] theorem decode_decs (src : Src) : decode ⟨0b010#3, src⟩ = .decs (real48Operand src) := rfl
@[simp] theorem decode_decd (src : Src) : decode ⟨0b011#3, src⟩ = .decd (real48Operand src) := rfl
@[simp] theorem decode_xsign (src : Src) : decode ⟨0b100#3, src⟩ = .xsign (real48Operand src) := rfl
@[simp] theorem decode_xexp (src : Src) : decode ⟨0b101#3, src⟩ = .xexp (real48Operand src) := rfl
@[simp] theorem decode_xfrac (src : Src) : decode ⟨0b110#3, src⟩ = .xfrac (real48Operand src) := rfl
@[simp] theorem decode_op7 (src : Src) : decode ⟨0b111#3, src⟩ = .op7 := rfl

/-- Every operation code is one of the eight (R26). -/
theorem opCode_cases (op : OpCode) :
    op = 0b000#3 ∨ op = 0b001#3 ∨ op = 0b010#3 ∨ op = 0b011#3 ∨ op = 0b100#3 ∨ op = 0b101#3 ∨ op = 0b110#3 ∨ op = 0b111#3 := by
  revert op; decide

/-- The single operand as a number (R28). -/
theorem singleOperand_toNat (src : Src) : (singleOperand src).toNat = src.toNat % 2 ^ 32 := by
  simp [singleOperand]

/-- The Real48 operand as a number (R28). -/
theorem real48Operand_toNat (src : Src) : (real48Operand src).toNat = src.toNat % 2 ^ 48 := by
  simp [real48Operand]

end Sys2Proof
end

