-- ==== Sys2Proof/Laws/State.lean ====
section
/-! SUPPORT. One lemma per field per update of State: presenting a transaction, delivering an outcome. -/

namespace Sys2Proof.Machine

@[simp] theorem State.present_op_i (t : Transaction) (s : State) : (s.present t).op_i = t.op := rfl
@[simp] theorem State.present_src_i (t : Transaction) (s : State) : (s.present t).src_i = t.src := rfl
@[simp] theorem State.present_res_o (t : Transaction) (s : State) : (s.present t).res_o = s.res_o := rfl
@[simp] theorem State.present_err_o (t : Transaction) (s : State) : (s.present t).err_o = s.err_o := rfl
@[simp] theorem State.present_build (t : Transaction) (s : State) : (s.present t).build = s.build := rfl
@[simp] theorem State.present_transaction (t : Transaction) (s : State) : (s.present t).transaction = t := rfl

variable {w : Nat}

@[simp] theorem State.deliver_op_i (a : Attempt w) (s : State) : (s.deliver a).op_i = s.op_i := rfl
@[simp] theorem State.deliver_src_i (a : Attempt w) (s : State) : (s.deliver a).src_i = s.src_i := rfl
@[simp] theorem State.deliver_build (a : Attempt w) (s : State) : (s.deliver a).build = s.build := rfl
@[simp] theorem State.deliver_transaction (a : Attempt w) (s : State) : (s.deliver a).transaction = s.transaction := rfl

theorem State.deliver_res_o (a : Attempt w) (s : State) : (s.deliver a).res_o = (a.outcome s.build).res := rfl
theorem State.deliver_err_o (a : Attempt w) (s : State) : (s.deliver a).err_o = (a.outcome s.build).err_o := rfl

@[simp] theorem State.reply_res (s : State) : s.reply.res = s.res_o := rfl
@[simp] theorem State.reply_err (s : State) : s.reply.err = s.err_o := rfl

end Sys2Proof.Machine
end

