-- ==== Sys2Proof/Laws/Ops.lean ====
section
/-! SUPPORT. The spec lemmas of the shared operations: what an outcome shows on the ports, what delivering can do, the fields of
a packed pattern. -/

namespace Sys2Proof.Machine

variable {w : Nat}

@[simp] theorem Attempt.outcome_ok (b : Config.Build) (v : BitVec w) : (Attempt.ok v).outcome b = .ok v := rfl
@[simp] theorem Attempt.outcome_raise (b : Config.Build) (c : Cause) :
    (Attempt.raise c : Attempt w).outcome b = .err (c.kind b) := rfl
@[simp] theorem TxOutcome.res_ok (v : BitVec w) : (TxOutcome.ok v).res = v.setWidth 64 := rfl
@[simp] theorem TxOutcome.res_err (k : ErrKind) : (TxOutcome.err k : TxOutcome w).res = 0 := rfl
@[simp] theorem TxOutcome.err_o_ok (v : BitVec w) : (TxOutcome.ok v).err_o = 0 := rfl
@[simp] theorem TxOutcome.err_o_err (k : ErrKind) : (TxOutcome.err k : TxOutcome w).err_o = k.code := rfl

/-- Delivering a value: the result port carries it, the outcome port shows success (R29, R30). -/
theorem State.deliver_ok (v : BitVec w) (s : State) :
    s.deliver (.ok v) = { s with res_o := v.setWidth 64, err_o := 0 } := rfl

/-- Delivering a failure: a zero result port, the code of the kind on the outcome port (R59, R30). -/
theorem State.deliver_raise (c : Cause) (s : State) :
    s.deliver (.raise c : Attempt w) = { s with res_o := 0, err_o := (c.kind s.build).code } := rfl

/-- No failure kind has the code of success (R30). -/
theorem ErrKind.code_ne_zero (k : ErrKind) : k.code ≠ 0 := by cases k <;> decide

/-- The code says the kind (R30). -/
theorem ErrKind.code_injective (k k' : ErrKind) (h : k.code = k'.code) : k = k' := by
  cases k <;> cases k' <;> first | rfl | exact absurd h (by decide)

/-- Everything delivering can do: a value on a success, a zero on a failure whose code is not that of success. -/
theorem State.deliver_cases (a : Attempt w) (s : State) :
    (∃ v, a = .ok v ∧ s.deliver a = { s with res_o := v.setWidth 64, err_o := 0 }) ∨
    (∃ c, a = .raise c ∧ s.deliver a = { s with res_o := 0, err_o := (c.kind s.build).code }) := by
  cases a with
  | ok v => exact .inl ⟨v, rfl, rfl⟩
  | raise c => exact .inr ⟨c, rfl, rfl⟩

/-- A delivered outcome shows success exactly when the attempt has a value. -/
theorem State.deliver_err_o_eq_zero (a : Attempt w) (s : State) :
    (s.deliver a).err_o = 0 ↔ ∃ v, a = .ok v := by
  cases a with
  | ok v => simp [State.deliver_ok]
  | raise c => simpa [State.deliver_raise] using (c.kind s.build).code_ne_zero

@[simp] theorem s48_pack48 (s : BitVec 1) (e : BitVec 8) (f : BitVec 39) : s48 (pack48 s e f) = s := by
  apply BitVec.eq_of_getLsbD_eq; intro i hi
  simp only [s48, pack48, BitVec.getLsbD_extractLsb', BitVec.getLsbD_append, hi, decide_true, Bool.true_and]
  rw [if_neg (by omega), if_neg (by omega)]
  congr 1; omega

@[simp] theorem e48_pack48 (s : BitVec 1) (e : BitVec 8) (f : BitVec 39) : e48 (pack48 s e f) = e := by
  apply BitVec.eq_of_getLsbD_eq; intro i hi
  simp only [e48, pack48, BitVec.getLsbD_extractLsb', BitVec.getLsbD_append, hi, decide_true, Bool.true_and]
  rw [if_pos (by omega), Nat.zero_add]

@[simp] theorem f48_pack48 (s : BitVec 1) (e : BitVec 8) (f : BitVec 39) : f48 (pack48 s e f) = f := by
  apply BitVec.eq_of_getLsbD_eq; intro i hi
  simp only [f48, pack48, BitVec.getLsbD_extractLsb', BitVec.getLsbD_append, hi, decide_true, Bool.true_and]
  rw [if_neg (by omega), if_pos (by omega)]
  congr 1; omega

/-- The three fields determine the pattern (R42). -/
theorem pack48_fields (v : Real48) : pack48 (s48 v) (e48 v) (f48 v) = v := by
  apply BitVec.eq_of_getLsbD_eq; intro i hi
  simp only [pack48, s48, e48, f48, BitVec.getLsbD_append, BitVec.getLsbD_extractLsb']
  by_cases h1 : i < 8
  · simp [h1]
  · by_cases h2 : i - 8 < 39
    · simp [h1, h2]; congr 1; omega
    · obtain rfl : i = 47 := by omega
      simp

@[simp] theorem s32_packSingle (s : BitVec 1) (e : BitVec 8) (f : BitVec 23) : s32 (packSingle s e f) = s := by
  apply BitVec.eq_of_getLsbD_eq; intro i hi
  simp only [s32, packSingle, BitVec.getLsbD_extractLsb', BitVec.getLsbD_append, hi, decide_true, Bool.true_and]
  rw [if_neg (by omega), if_neg (by omega)]
  congr 1; omega

@[simp] theorem frac32_packSingle (s : BitVec 1) (e : BitVec 8) (f : BitVec 23) : frac32 (packSingle s e f) = f := by
  apply BitVec.eq_of_getLsbD_eq; intro i hi
  simp only [frac32, packSingle, BitVec.getLsbD_extractLsb', BitVec.getLsbD_append, hi, decide_true, Bool.true_and]
  rw [if_pos (by omega), Nat.zero_add]

@[simp] theorem exp32_packSingle (s : BitVec 1) (e : BitVec 8) (f : BitVec 23) : exp32 (packSingle s e f) = e := by
  apply BitVec.eq_of_getLsbD_eq; intro i hi
  simp only [exp32, packSingle, BitVec.getLsbD_extractLsb', BitVec.getLsbD_append, hi, decide_true, Bool.true_and]
  rw [if_neg (by omega), if_pos (by omega)]
  congr 1; omega

/-- The three fields determine the pattern (R12). -/
theorem packSingle_fields (x : Single) : packSingle (s32 x) (exp32 x) (frac32 x) = x := by
  apply BitVec.eq_of_getLsbD_eq; intro i hi
  simp only [packSingle, s32, exp32, frac32, BitVec.getLsbD_append, BitVec.getLsbD_extractLsb']
  by_cases h1 : i < 23
  · simp [h1]
  · by_cases h2 : i - 23 < 8
    · simp [h1, h2]; congr 1; omega
    · obtain rfl : i = 31 := by omega
      simp

@[simp] theorem s64_packDouble (s : BitVec 1) (e : BitVec 11) (f : BitVec 52) : s64 (packDouble s e f) = s := by
  apply BitVec.eq_of_getLsbD_eq; intro i hi
  simp only [s64, packDouble, BitVec.getLsbD_extractLsb', BitVec.getLsbD_append, hi, decide_true, Bool.true_and]
  rw [if_neg (by omega), if_neg (by omega)]
  congr 1; omega

@[simp] theorem frac64_packDouble (s : BitVec 1) (e : BitVec 11) (f : BitVec 52) : frac64 (packDouble s e f) = f := by
  apply BitVec.eq_of_getLsbD_eq; intro i hi
  simp only [frac64, packDouble, BitVec.getLsbD_extractLsb', BitVec.getLsbD_append, hi, decide_true, Bool.true_and]
  rw [if_pos (by omega), Nat.zero_add]

@[simp] theorem exp64_packDouble (s : BitVec 1) (e : BitVec 11) (f : BitVec 52) : exp64 (packDouble s e f) = e := by
  apply BitVec.eq_of_getLsbD_eq; intro i hi
  simp only [exp64, packDouble, BitVec.getLsbD_extractLsb', BitVec.getLsbD_append, hi, decide_true, Bool.true_and]
  rw [if_neg (by omega), if_pos (by omega)]
  congr 1; omega

/-- The three fields determine the pattern (R13). -/
theorem packDouble_fields (x : Double) : packDouble (s64 x) (exp64 x) (frac64 x) = x := by
  apply BitVec.eq_of_getLsbD_eq; intro i hi
  simp only [packDouble, s64, exp64, frac64, BitVec.getLsbD_append, BitVec.getLsbD_extractLsb']
  by_cases h1 : i < 52
  · simp [h1]
  · by_cases h2 : i - 52 < 11
    · simp [h1, h2]; congr 1; omega
    · obtain rfl : i = 63 := by omega
      simp

end Sys2Proof.Machine
end

