-- ==== Sys2Proof/Laws/Decoders.lean ====
section
/-! SUPPORT. One lemma each for DECS (R37) and DECD (R38) that says everything the operation can do, its arithmetic carried out. -/

namespace Sys2Proof.Machine

/-- R37: the exponent step of DECS, where it lands in the normal range. -/
theorem decs_exponent (e : BitVec 8) (h : 3 ≤ e.toNat) :
    BitVec.ofInt 8 ((e.toNat : Int) - Config.offsetFromSingle) = e - 2#8 := by
  apply BitVec.eq_of_toNat_eq
  simp only [BitVec.toNat_ofInt, BitVec.toNat_sub, BitVec.toNat_ofNat, Config.offsetFromSingle]
  omega

/-- R37: "the top 23 bits" of the fraction. -/
theorem decs_fraction (f : BitVec 39) : (f >>> Config.fractionShiftSingle).setWidth 23 = f.extractLsb' 16 23 := by
  apply BitVec.eq_of_toNat_eq
  simp only [BitVec.toNat_setWidth, BitVec.toNat_ushiftRight, BitVec.extractLsb'_toNat, Config.fractionShiftSingle]

/-- R38: the exponent step of DECD, in the width of the field. -/
theorem decd_exponent (e : BitVec 8) :
    BitVec.ofInt 11 ((e.toNat : Int) - Config.offsetFromDouble) = e.setWidth 11 + 894#11 := by
  apply BitVec.eq_of_toNat_eq
  have := e.isLt
  simp only [BitVec.toNat_ofInt, BitVec.toNat_add, BitVec.toNat_setWidth, BitVec.toNat_ofNat, Config.offsetFromDouble]
  omega

/-- R38: widening the fraction appends 13 zero bits. -/
theorem decd_fraction (f : BitVec 39) : f.setWidth 52 <<< Config.fractionShiftDouble = f ++ 0#13 := by
  apply BitVec.eq_of_toNat_eq
  have := f.isLt
  simp only [BitVec.toNat_shiftLeft, BitVec.toNat_setWidth, BitVec.toNat_append, Config.fractionShiftDouble,
    Nat.shiftLeft_eq, BitVec.toNat_ofNat, Nat.zero_mod, Nat.or_zero]
  omega

/-- Everything DECS can do (R37, R56). -/
theorem decs_cases (v : Real48) :
    (e48 v = 0 ∧ decs v = .ok 0) ∨
    (((e48 v).toNat = 1 ∨ (e48 v).toNat = 2) ∧ decs v = .raise .decsUnderflow) ∨
    (3 ≤ (e48 v).toNat ∧ decs v = .ok (packSingle (s48 v) (e48 v - 2#8) ((f48 v).extractLsb' 16 23))) := by
  have hlt := (e48 v).isLt
  unfold decs
  split
  · next h => exact .inl ⟨h, rfl⟩
  · next h0 =>
    have h0' : (e48 v).toNat ≠ 0 := fun h => h0 (BitVec.eq_of_toNat_eq h)
    dsimp only
    split
    · next h =>
      simp only [Config.offsetFromSingle] at h
      exact .inr (.inl ⟨by omega, rfl⟩)
    · next h =>
      simp only [Config.offsetFromSingle] at h
      have h3 : 3 ≤ (e48 v).toNat := by omega
      exact .inr (.inr ⟨h3, by rw [decs_exponent _ h3, decs_fraction]⟩)

/-- Everything DECD can do (R38). -/
theorem decd_cases (v : Real48) :
    (e48 v = 0 ∧ decd v = 0) ∨
    (e48 v ≠ 0 ∧ decd v = packDouble (s48 v) ((e48 v).setWidth 11 + 894#11) (f48 v ++ 0#13)) := by
  unfold decd
  split
  · next h => exact .inl ⟨h, rfl⟩
  · next h => exact .inr ⟨h, by dsimp only; rw [decd_exponent, decd_fraction]⟩

end Sys2Proof.Machine
end

