-- ==== Sys2Proof/Laws/Encode.lean ====
section
/-! SUPPORT. One lemma each for ENCS (R35) and ENCD (R36) that says everything the operation can do, its arithmetic carried out. -/

namespace Sys2Proof.Machine

/-- R35: the exponent step of ENCS, in the width of the field. -/
theorem encs_exponent (e : BitVec 8) : BitVec.ofInt 8 ((e.toNat : Int) + Config.offsetFromSingle) = e + 2#8 := by
  apply BitVec.eq_of_toNat_eq
  simp only [BitVec.toNat_ofInt, BitVec.toNat_add, BitVec.toNat_ofNat, Config.offsetFromSingle]
  omega

/-- R35: widening the fraction appends 16 zero bits. -/
theorem encs_fraction (f : BitVec 23) : f.setWidth 39 <<< Config.fractionShiftSingle = f ++ 0#16 := by
  apply BitVec.eq_of_toNat_eq
  have := f.isLt
  simp only [BitVec.toNat_shiftLeft, BitVec.toNat_setWidth, BitVec.toNat_append, Config.fractionShiftSingle,
    Nat.shiftLeft_eq, BitVec.toNat_ofNat, Nat.zero_mod, Nat.or_zero]
  omega

/-- R36: the exponent step of ENCD, where it lands in 1..255. -/
theorem encd_exponent (e : BitVec 11) (h : 895 ≤ e.toNat) (h' : e.toNat ≤ 1149) :
    BitVec.ofInt 8 ((e.toNat : Int) + Config.offsetFromDouble) = (e - 894#11).setWidth 8 := by
  apply BitVec.eq_of_toNat_eq
  simp only [BitVec.toNat_ofInt, BitVec.toNat_setWidth, BitVec.toNat_sub, BitVec.toNat_ofNat, Config.offsetFromDouble]
  omega

/-- R36: narrowing the fraction keeps bits 51..13 of it. -/
theorem encd_fraction (f : BitVec 52) : (f >>> Config.fractionShiftDouble).setWidth 39 = f.extractLsb' 13 39 := by
  apply BitVec.eq_of_toNat_eq
  simp only [BitVec.toNat_setWidth, BitVec.toNat_ushiftRight, BitVec.extractLsb'_toNat, Config.fractionShiftDouble]

/-- Everything ENCS can do (R35, R56). -/
theorem encs_cases (x : Single) :
    (exp32 x = 0 ∧ frac32 x = 0 ∧ encs x = .ok 0) ∨
    (1 ≤ (exp32 x).toNat ∧ (exp32 x).toNat ≤ 253 ∧
      encs x = .ok (pack48 (s32 x) (exp32 x + 2#8) (frac32 x ++ 0#16))) ∨
    (exp32 x = 255 ∧ encs x = .raise .encsNonfinite) ∨
    (exp32 x = 0 ∧ frac32 x ≠ 0 ∧ encs x = .raise .encsSubnormal) ∨
    (exp32 x = 254 ∧ encs x = .raise .encsExpRange) := by
  have hlt := (exp32 x).isLt
  unfold encs
  split
  · next h => exact .inl ⟨h.1, h.2, rfl⟩
  · next h0 =>
    split
    · next h => exact .inr (.inr (.inl ⟨h, rfl⟩))
    · next h1 =>
      split
      · next h => exact .inr (.inr (.inr (.inl ⟨h, fun hf => h0 ⟨h, hf⟩, rfl⟩)))
      · next h2 =>
        have h1' : (exp32 x).toNat ≠ 255 := fun h => h1 (BitVec.eq_of_toNat_eq h)
        have h2' : (exp32 x).toNat ≠ 0 := fun h => h2 (BitVec.eq_of_toNat_eq h)
        dsimp only
        split
        · next h =>
          simp only [Config.offsetFromSingle] at h
          exact .inr (.inr (.inr (.inr ⟨BitVec.eq_of_toNat_eq (show _ = 254 by omega), rfl⟩)))
        · next h =>
          simp only [Config.offsetFromSingle] at h
          exact .inr (.inl ⟨by omega, by omega, by rw [encs_exponent, encs_fraction]⟩)

/-- Everything ENCD can do (R36, R56). -/
theorem encd_cases (x : Double) :
    (exp64 x = 0 ∧ frac64 x = 0 ∧ encd x = .ok 0) ∨
    (895 ≤ (exp64 x).toNat ∧ (exp64 x).toNat ≤ 1149 ∧
      encd x = .ok (pack48 (s64 x) ((exp64 x - 894#11).setWidth 8) ((frac64 x).extractLsb' 13 39))) ∨
    (exp64 x = 2047 ∧ encd x = .raise .encdNonfinite) ∨
    (¬ (exp64 x = 0 ∧ frac64 x = 0) ∧
      ((exp64 x).toNat ≤ 894 ∨ (1150 ≤ (exp64 x).toNat ∧ (exp64 x).toNat ≤ 2046)) ∧ encd x = .raise .encdExpRange) := by
  have hlt := (exp64 x).isLt
  unfold encd
  split
  · next h => exact .inl ⟨h.1, h.2, rfl⟩
  · next h0 =>
    split
    · next h => exact .inr (.inr (.inl ⟨h, rfl⟩))
    · next h1 =>
      have h1' : (exp64 x).toNat ≠ 2047 := fun h => h1 (BitVec.eq_of_toNat_eq h)
      dsimp only
      split
      · next h =>
        simp only [Config.offsetFromDouble] at h
        exact .inr (.inr (.inr ⟨h0, by omega, rfl⟩))
      · next h =>
        simp only [Config.offsetFromDouble] at h
        have ha : 895 ≤ (exp64 x).toNat := by omega
        have hb : (exp64 x).toNat ≤ 1149 := by omega
        exact .inr (.inl ⟨ha, hb, by rw [encd_exponent _ ha hb, encd_fraction]⟩)

end Sys2Proof.Machine
end

