-- ==== Sys2Proof/Laws/Operands.lean ====
section
/-! SUPPORT. The fields as numbers (R9, R12, R13), and the all-zero tests of the encoders (R35, R36) on whole patterns. -/

namespace Sys2Proof.Machine

/-- A concatenation as a number, the second part in the low bits. -/
theorem append_toNat {m n : Nat} (x : BitVec m) (y : BitVec n) : (x ++ y).toNat = x.toNat * 2 ^ n + y.toNat := by
  rw [BitVec.toNat_append, ← Nat.shiftLeft_add_eq_or_of_lt y.isLt, Nat.shiftLeft_eq]

theorem s48_toNat (v : Real48) : (s48 v).toNat = v.toNat / 2 ^ 47 := by
  have := v.isLt
  simp only [s48, BitVec.extractLsb'_toNat, Nat.shiftRight_eq_div_pow]; omega

theorem f48_toNat (v : Real48) : (f48 v).toNat = v.toNat / 2 ^ 8 % 2 ^ 39 := by
  simp only [f48, BitVec.extractLsb'_toNat, Nat.shiftRight_eq_div_pow]

theorem e48_toNat (v : Real48) : (e48 v).toNat = v.toNat % 2 ^ 8 := by
  simp only [e48, BitVec.extractLsb'_toNat, Nat.shiftRight_zero]

theorem s32_toNat (x : Single) : (s32 x).toNat = x.toNat / 2 ^ 31 := by
  have := x.isLt
  simp only [s32, BitVec.extractLsb'_toNat, Nat.shiftRight_eq_div_pow]; omega

theorem exp32_toNat (x : Single) : (exp32 x).toNat = x.toNat / 2 ^ 23 % 2 ^ 8 := by
  simp only [exp32, BitVec.extractLsb'_toNat, Nat.shiftRight_eq_div_pow]

theorem frac32_toNat (x : Single) : (frac32 x).toNat = x.toNat % 2 ^ 23 := by
  simp only [frac32, BitVec.extractLsb'_toNat, Nat.shiftRight_zero]

theorem s64_toNat (x : Double) : (s64 x).toNat = x.toNat / 2 ^ 63 := by
  have := x.isLt
  simp only [s64, BitVec.extractLsb'_toNat, Nat.shiftRight_eq_div_pow]; omega

theorem exp64_toNat (x : Double) : (exp64 x).toNat = x.toNat / 2 ^ 52 % 2 ^ 11 := by
  simp only [exp64, BitVec.extractLsb'_toNat, Nat.shiftRight_eq_div_pow]

theorem frac64_toNat (x : Double) : (frac64 x).toNat = x.toNat % 2 ^ 52 := by
  simp only [frac64, BitVec.extractLsb'_toNat, Nat.shiftRight_zero]

/-- R14: a single is a zero when all its bits but the sign are 0. -/
theorem single_zero_iff (x : Single) : x.extractLsb' 0 31 = 0 ↔ exp32 x = 0 ∧ frac32 x = 0 := by
  have h1 := exp32_toNat x
  have h2 := frac32_toNat x
  simp only [BitVec.toNat_eq, BitVec.extractLsb'_toNat, Nat.shiftRight_zero, BitVec.ofNat_eq_ofNat, BitVec.toNat_ofNat, h1, h2]
  omega

/-- R14: a double is a zero when all its bits but the sign are 0. -/
theorem double_zero_iff (x : Double) : x.extractLsb' 0 63 = 0 ↔ exp64 x = 0 ∧ frac64 x = 0 := by
  have h1 := exp64_toNat x
  have h2 := frac64_toNat x
  simp only [BitVec.toNat_eq, BitVec.extractLsb'_toNat, Nat.shiftRight_zero, BitVec.ofNat_eq_ofNat, BitVec.toNat_ofNat, h1, h2]
  omega

/-- The number a packed Real48 pattern is (R34). -/
theorem pack48_toNat (s : BitVec 1) (e : BitVec 8) (f : BitVec 39) :
    (pack48 s e f).toNat = s.toNat * 2 ^ 47 + f.toNat * 2 ^ 8 + e.toNat := by
  have h := s48_toNat (pack48 s e f)
  have h' := f48_toNat (pack48 s e f)
  have h'' := e48_toNat (pack48 s e f)
  simp only [s48_pack48, f48_pack48, e48_pack48] at h h' h''
  have := (pack48 s e f).isLt
  omega

/-- The number a packed single pattern is (R12). -/
theorem packSingle_toNat (s : BitVec 1) (e : BitVec 8) (f : BitVec 23) :
    (packSingle s e f).toNat = s.toNat * 2 ^ 31 + e.toNat * 2 ^ 23 + f.toNat := by
  have h := s32_toNat (packSingle s e f)
  have h' := exp32_toNat (packSingle s e f)
  have h'' := frac32_toNat (packSingle s e f)
  simp only [s32_packSingle, exp32_packSingle, frac32_packSingle] at h h' h''
  have := (packSingle s e f).isLt
  omega

/-- The number a packed double pattern is (R13). -/
theorem packDouble_toNat (s : BitVec 1) (e : BitVec 11) (f : BitVec 52) :
    (packDouble s e f).toNat = s.toNat * 2 ^ 63 + e.toNat * 2 ^ 52 + f.toNat := by
  have h := s64_toNat (packDouble s e f)
  have h' := exp64_toNat (packDouble s e f)
  have h'' := frac64_toNat (packDouble s e f)
  simp only [s64_packDouble, exp64_packDouble, frac64_packDouble] at h h' h''
  have := (packDouble s e f).isLt
  omega

end Sys2Proof.Machine
end

