-- ==== Sys2Proof/Laws/PerInstr.lean ====
section
/-! SUPPORT. The family Code: the operation code of each instruction's transaction is its row's (R26). -/

namespace Sys2Proof.Laws.Code

open Sys2Proof

/-- R26: the code of each row. -/
def codeOf : Mnemonic → OpCode
  | .ENCS => 0
  | .ENCD => 1
  | .DECS => 2
  | .DECD => 3
  | .XSIGN => 4
  | .XEXP => 5
  | .XFRAC => 6
  | .OP7 => 7

/-- The transaction of an instruction carries its row's code. -/
def Statement (i : Instr) : Prop := (encode i).op = codeOf i.mnemonic

theorem encs (x : Single) : Statement (.encs x) := rfl
theorem encd (x : Double) : Statement (.encd x) := rfl
theorem decs (v : Real48) : Statement (.decs v) := rfl
theorem decd (v : Real48) : Statement (.decd v) := rfl
theorem xsign (v : Real48) : Statement (.xsign v) := rfl
theorem xexp (v : Real48) : Statement (.xexp v) := rfl
theorem xfrac (v : Real48) : Statement (.xfrac v) := rfl
theorem op7 : Statement .op7 := rfl

end Sys2Proof.Laws.Code
end

