-- ==== Sys2Proof/Laws/Step.lean ====
section
/-! SUPPORT. What an evaluation can do: every meaning delivers one outcome on the output ports. From this follow the frame and
that the block never stops. -/

namespace Sys2Proof.Machine

/-- Whatever the instruction, `exec` delivers one attempt of some width, and nothing else happens (R8, R16). -/
theorem exec_delivers (i : Instr) : ∃ (w : Nat) (a : Attempt w), ∀ s : State, exec i s = .next (s.deliver a) := by
  cases i with
  | encs x => exact ⟨48, encs x, fun _ => rfl⟩
  | encd x => exact ⟨48, encd x, fun _ => rfl⟩
  | decs v => exact ⟨32, decs v, fun _ => rfl⟩
  | decd v => exact ⟨64, .ok (decd v), fun _ => rfl⟩
  | xsign v => exact ⟨1, .ok (xsign v), fun _ => rfl⟩
  | xexp v => exact ⟨8, .ok (xexp v), fun _ => rfl⟩
  | xfrac v => exact ⟨39, .ok (xfrac v), fun _ => rfl⟩
  | op7 => exact ⟨64, reserved, fun _ => rfl⟩

/-- A step delivers one attempt, which depends on the two inputs alone (R16, R23). -/
theorem step_delivers (op : OpCode) (src : Src) :
    ∃ (w : Nat) (a : Attempt w), ∀ s : State, s.op_i = op → s.src_i = src → step s = .next (s.deliver a) := by
  obtain ⟨w, a, h⟩ := exec_delivers (decode ⟨op, src⟩)
  refine ⟨w, a, fun s ho hs => ?_⟩
  subst ho hs
  exact h s

/-- The host's fetch: the ports after `withFetchWord` carry the two fields of the word (R27). -/
theorem withFetchWord_transaction (s : State) (nbits w : Nat) :
    (s.withFetchWord nbits w).transaction = Transaction.ofWord (BitVec.ofNat 67 (w % 2 ^ nbits)) := rfl

/-! The block drawn by its sub-blocks, one equation per operation code (R15, R26). -/

theorem real48Core_encs (b : Config.Build) (src : Src) :
    real48Core b 0b000#3 src = ((encs (singleOperand src)).outcome b).reply := rfl
theorem real48Core_encd (b : Config.Build) (src : Src) :
    real48Core b 0b001#3 src = ((encd (doubleOperand src)).outcome b).reply := rfl
theorem real48Core_decs (b : Config.Build) (src : Src) :
    real48Core b 0b010#3 src = ((decs (real48Operand src)).outcome b).reply := rfl
theorem real48Core_decd (b : Config.Build) (src : Src) :
    real48Core b 0b011#3 src = ⟨decd (real48Operand src), 0⟩ := rfl
theorem real48Core_xsign (b : Config.Build) (src : Src) : real48Core b 0b100#3 src = fpSignExtractor src := rfl
theorem real48Core_xexp (b : Config.Build) (src : Src) : real48Core b 0b101#3 src = fpExponentExtractor src := rfl
theorem real48Core_xfrac (b : Config.Build) (src : Src) : real48Core b 0b110#3 src = fpFractionExtractor src := rfl
theorem real48Core_op7 (b : Config.Build) (src : Src) : real48Core b 0b111#3 src = reservedReply := rfl

end Sys2Proof.Machine
end

