-- ==== Sys2Proof/Tests/NativeDouble.lean ====
section
/-! SUPPORT. One reading of the open parameter dop, for tests and witnesses only: IEEE-754 binary64 on finite operands in
round-to-nearest-even, as spec/93_implementation_defined.md G4 reads it for the worked rows (PRESUMED, log 14). No
definition of the model uses it. -/

namespace Sys2Proof.Tests

open Sys2Proof.Machine

/-- The magnitude of a finite double in units of 2^-1074 (R14). -/
def magnitude (x : Double) : Nat :=
  if exp64 x = 0 then (frac64 x).toNat else (2 ^ 52 + (frac64 x).toNat) * 2 ^ ((exp64 x).toNat - 1)

/-- A double in units of 2^-1074, with its sign. -/
def scaled (x : Double) : Int := if s64 x = 0 then (magnitude x : Int) else -(magnitude x : Int)

/-- The double nearest to `num / den` units of 2^-1074, ties to the even fraction; an infinity where it is too large. -/
def nearest (negative : Bool) (num den : Nat) : Double :=
  let q := num / den
  let shift := if q < 2 ^ 53 then 0 else Nat.log2 q - 52
  let d := den * 2 ^ shift
  let m := num / d
  let r := num % d
  let m' := if 2 * r > d ∨ (2 * r = d ∧ m % 2 = 1) then m + 1 else m
  let bits := m' + shift * 2 ^ 52
  let bits := if bits ≥ 2047 * 2 ^ 52 then 2047 * 2 ^ 52 else bits
  BitVec.ofNat 64 (bits + if negative then 2 ^ 63 else 0)

/-- One pattern that is a NaN (R14); which one an operation gives, nothing says. -/
def someNan : Double := 0x7FF8000000000000#64

/-- Whether a pattern is finite (R14). -/
def isFinite (x : Double) : Bool := decide (exp64 x ≠ 2047)

def addNearest (x y : Double) : Double :=
  if isFinite x && isFinite y then
    let r := scaled x + scaled y
    if r = 0 then BitVec.ofNat 64 (if s64 x = 1 ∧ s64 y = 1 then 2 ^ 63 else 0)
    else nearest (decide (r < 0)) r.natAbs 1
  else someNan

def mulNearest (x y : Double) : Double :=
  if isFinite x && isFinite y then nearest (s64 x != s64 y) (magnitude x * magnitude y) (2 ^ 1074) else someNan

def divNearest (x y : Double) : Double :=
  if isFinite x && isFinite y then
    if magnitude y = 0 then
      if magnitude x = 0 then someNan else BitVec.ofNat 64 (2047 * 2 ^ 52 + if s64 x != s64 y then 2 ^ 63 else 0)
    else nearest (s64 x != s64 y) (magnitude x * 2 ^ 1074) (magnitude y)
  else someNan

/-- Comparison of finite doubles by value; false when either is not finite. -/
def valueAbove (x y : Double) : Bool :=
  match value64 x, value64 y with
  | some a, some b => decide (a > b)
  | _, _ => false

/-- The reading of dop of G4, on finite operands. -/
def nearestEven : Config.Dop where
  add := addNearest
  sub := fun x y => addNearest x (y ^^^ 0x8000000000000000#64)
  mul := mulNearest
  div := divNearest
  gt := valueAbove
  lt := fun x y => valueAbove y x

end Sys2Proof.Tests
end

