-- ==== Sys2Proof/Tests/Slice0.lean ====
section
/-! SUPPORT. Tests of one step or one function each, expected results from spec/95_test_vectors.md (section numbers in the
comments) or written out from an encoding rule; the well-formedness smoke tests; and, for every statement with hypotheses,
a witness that meets them. -/

namespace Sys2Proof.Tests

open Sys2Proof Sys2Proof.Machine

/-- A block whose inputs carry a transaction, built with the given parameter. -/
def driven (strict : Bool) (op : OpCode) (src : Src) : State :=
  { op_i := op, src_i := src, res_o := 0xFFFFFFFFFFFFFFFF#64, err_o := 3, build := ⟨strict⟩ }

/-- Whether a step from a driven block shows a given pair on the outputs. -/
def shows (strict : Bool) (op : OpCode) (src : Src) (res : Res) (err : ErrCode) : Bool :=
  match step (driven strict op src) with
  | .next s => decide (s.reply = ⟨res, err⟩)
  | .fault _ => false
  | .refused _ => false

/-! ### Well-formedness: a term each check refuses -/

theorem test_reserved_code_is_no_operation : Instr.op7.isOperation = false := by decide
theorem test_every_operand_is_well_formed : (Instr.decs 0x800000000000#48).wellFormed = true := by decide
theorem test_ignored_bits_not_zero_is_not_canonical : Transaction.canonical ⟨0, 0xDEADBEEF3FC00000#64⟩ = false := by decide
theorem test_canonical_form_clears_ignored_bits :
    Transaction.canonicalise ⟨0, 0xDEADBEEF3FC00000#64⟩ = ⟨0, 0x000000003FC00000#64⟩ := by decide
theorem test_number_wider_than_T_is_no_word : isTransactionWord (2 ^ 67) = false := by decide
theorem test_number_wider_than_T_is_rejected_by_name : decodeNumber (2 ^ 67) = .error .widerThanT := by decide

/-! ### Decoding: one word per row, written out from its encoding string in spec/opcode_table.json -/

theorem test_decode_ENCS :  -- 000, x*32, s=0, e=01111111, f=1 and 22 zeros
    decodeTableWord 72 0b000_11111111111111111111111111111111_0_01111111_10000000000000000000000 =
      some (.encs 0x3FC00000#32) := by decide
theorem test_decode_ENCD :  -- 001, s=1, e=10000000000, f=0100...
    decodeTableWord 72 0b001_1_10000000000_0100000000000000000000000000000000000000000000000000 =
      some (.encd 0xC004000000000000#64) := by decide
theorem test_decode_DECS :  -- 010, x*16, s=1, f (39), e=10000010
    decodeTableWord 72 0b010_1010101010101010_1_010000000000000000000000000000000000000_10000010 =
      some (.decs 0xA00000000082#48) := by decide
theorem test_decode_DECD :
    decodeTableWord 72 0b011_0000000000000000_0_000000000000000000000000000000000000001_10000001 =
      some (.decd 0x000000000181#48) := by decide
theorem test_decode_XSIGN :
    decodeTableWord 72 0b100_1111111111111111_0_100000000000000000000000000000000000000_10000001 =
      some (.xsign 0x400000000081#48) := by decide
theorem test_decode_XEXP :
    decodeTableWord 72 0b101_0000000000000000_1_000000000000000000000000000000000000000_00000000 =
      some (.xexp 0x800000000000#48) := by decide
theorem test_decode_XFRAC :
    decodeTableWord 72 0b110_0000000000000000_0_000000000000000000000000000000000000001_00000000 =
      some (.xfrac 0x000000000100#48) := by decide
theorem test_decode_OP7 :
    decodeTableWord 72 0b111_1111111111111111111111111111111111111111111111111111111111111111 = some .op7 := by decide
theorem test_fetched_word_is_driven_onto_the_inputs :
    (State.reset.withFetchWord 72 0x13FF8000000000000).transaction = ⟨1, 0x3FF8000000000000#64⟩ := by decide
theorem test_encode_writes_ignored_bits_zero : (encode (.xsign 0xC90FDB000082#48)).word = 0x40000C90FDB000082#67 := by decide

/-! ### One step (sections 2.1 to 2.6) -/

theorem test_ENCS_ignores_high_half : shows false 0 0xDEADBEEF3FC00000 0x0000400000000081 0 = true := by decide
theorem test_ENCS_refuses_subnormal : shows false 0 0x0000000000000001 0 1 = true := by decide
theorem test_ENCD_truncates_pi : shows false 1 0x400921FB54442D18 0x0000490FDAA22182 0 = true := by decide
theorem test_ENCD_does_not_wrap_below : shows false 1 0x37E0000000000000 0 1 = true := by decide
theorem test_DECS_truncates_negative_maximum : shows false 2 0x0000FFFFFFFFFFFF 0x00000000FEFFFFFF 0 = true := by decide
theorem test_DECS_underflow_is_RangeError_when_strict :
    (shows false 2 0x0000000000000001 0 1 && shows true 2 0x0000000000000001 0 2) = true := by decide
theorem test_DECD_of_noncanonical_zero : shows false 3 0x0000800000000000 0 0 = true := by decide
theorem test_DECD_of_maximum : shows false 3 0x00007FFFFFFFFFFF 0x47DFFFFFFFFFE000 0 = true := by decide
theorem test_XSIGN_is_bit_47_not_63 :
    (shows false 4 0xFFFF490FDAA22182 0 0 && shows false 4 0x0000C90FDB000082 1 0) = true := by decide
theorem test_XEXP_is_verbatim : shows false 5 0x0000C90FDB000082 0x82 0 = true := by decide
theorem test_XFRAC_masks_the_sign : shows false 6 0x0000FFFFFFFFFFFF 0x0000007FFFFFFFFF 0 = true := by decide
theorem test_OP7_is_IllegalOp_whatever_the_operand : shows false 7 0x3FF8000000000000 0 3 = true := by decide
theorem test_failed_transaction_has_no_result :
    (State.deliver (encd 0x7FF0000000000000#64) State.reset).result? = none := by decide

/-! ### Rows of section 2 at the ends of the ranges -/

theorem test_largest_encodable_single : encs 0x7EFFFFFF#32 = .ok 0x7FFFFF0000FF#48 := by decide
theorem test_largest_finite_single_fails : encs 0x7F7FFFFF#32 = .raise .encsExpRange := by decide
theorem test_just_below_two_to_127_encodes : encd 0x47DFFFFFFFFFFFFF#64 = .ok 0x7FFFFFFFFFFF#48 := by decide
theorem test_two_to_127_fails : encd 0x47E0000000000000#64 = .raise .encdExpRange := by decide
theorem test_smallest_decodable_to_single : decs 0x000000FFFF03#48 = .ok 0x00800000#32 := by decide
theorem test_bytes_of_three_halves : -- R19
    (toBytes 0x400000000081#48).toList = [0x40, 0x00, 0x00, 0x00, 0x00, 0x81] := by decide

/-! ### The surrounding software (section 3), with dop read as in G4 -/

theorem test_negation_of_zero_is_noncanonical : real48Class (Software.neg 0) = .nonCanonicalZero := by decide
theorem test_arith_add : Software.arith ⟨false⟩ nearestEven .add 0x400000000081#48 0x100000000082#48 = .ok 0x700000000082#48 := by
  decide +kernel
theorem test_arith_third : Software.arith ⟨false⟩ nearestEven .div 0x000000000081#48 0x400000000082#48 = .ok 0x2AAAAAAAAA7F#48 := by
  decide +kernel
theorem test_arith_sub_of_negative :
    Software.arith ⟨false⟩ nearestEven .sub 0x000000000081#48 0x800000000081#48 = .ok 0x000000000082#48 := by decide +kernel
theorem test_arith_overflow_at_two_to_127 :
    Software.arith ⟨false⟩ nearestEven .add 0x7FFFFFFFFFFF#48 0x0000000000D8#48 = .err .overflowError := by decide +kernel
theorem test_failed_in_place_has_no_value :
    Software.arithAssign ⟨false⟩ nearestEven .div 0x000000000081#48 0 = none := by decide +kernel

/-! ### The transaction script (R32; section 5) -/

/-- P4 lines 2 and 3, as text. -/
def scriptP4 : List (Option ScriptLine) :=
  [parseScriptLine "ENCD  0x37F0000000000000 -> m     ; 2^-128: smallest encodable".toList,
   parseScriptLine "DECS  m                           ; too small for single".toList]

theorem test_script_text : scriptP4 =
    [some ⟨none, .ENCD, .literal [3, 7, 15, 0, 0, 0, 0, 0, 0, 0, 0, 0, 0, 0, 0, 0], some "m".toList⟩,
     some ⟨none, .DECS, .name "m".toList, none⟩] := by decide
theorem test_script_reserved_code_with_label :
    parseScriptLine "bad: .OP7 0x0000000000000000".toList =
      some ⟨some "bad".toList, .OP7, .literal (List.replicate 16 0), none⟩ := by decide
theorem test_script_lower_case_mnemonic_is_none : parseScriptLine "encs 0x00000001".toList = none := by decide
theorem test_script_run : (match runScript (scriptP4.filterMap id) [] State.reset with
    | .ok e => e.replies | .error _ => []) = [⟨1, 0⟩, ⟨0, 1⟩] := by decide
theorem test_script_literal_of_wrong_width :
    runScript [⟨none, .ENCS, .literal [1], none⟩] [] State.reset = .error .literalWidth := by decide
theorem test_script_unbound_name :
    runScript [⟨none, .XEXP, .name "a".toList, none⟩] [] State.reset = .error (.unboundName "a".toList) := by decide
theorem test_transaction_text : transactionText ⟨0b100#3, 0x0000C90FDB000082#64⟩ = "100:0000C90FDB000082".toList := by decide

/-! ### Witnesses: concrete inputs that meet the hypotheses of each statement that has some -/

theorem witness_decodes : decodeTableWord 72 0x13FF8000000000000 = some (.encd 0x3FF8000000000000#64) := by decide
theorem witness_operand_bits_agree :
    (driven false 0 0xDEADBEEF3FC00000).src_i.toNat % 2 ^ operandWidth 0 = (0x3FC00000#64).toNat % 2 ^ operandWidth 0 ∧
    (driven false 2 0xFFFF400000000081).src_i.toNat % 2 ^ operandWidth 2 = (0x400000000081#64).toNat % 2 ^ operandWidth 2 ∧
    (driven false 7 1).src_i.toNat % 2 ^ operandWidth 7 = (0#64).toNat % 2 ^ operandWidth 7 := by decide
theorem witness_canonical : Transaction.canonical ⟨0, 0x000000003FC00000#64⟩ = true := by decide
theorem witness_step_codes : ∀ op : OpCode, (driven true op 0).op_i = op := fun _ => rfl
/-- Both clauses of the no-result statement: a failing and a succeeding transaction, at the ends of ENCD's range. -/
theorem witness_failure_and_success :
    (State.deliver (encd 0x47E0000000000000#64) State.reset).err_o ≠ 0b00#2 ∧
    (State.deliver (encd 0x47DFFFFFFFFFFFFF#64) State.reset).err_o = 0b00#2 := by decide
/-- Both clauses of the strict-setting statement: exponent fields 1 and 2 underflow, 0 and 3 do not. -/
theorem witness_underflow_and_not : decs 0x000000000001#48 = .raise .decsUnderflow ∧ decs 0x000000000002#48 = .raise .decsUnderflow ∧
    decs 0x000000000000#48 = .ok 0 ∧ decs 0x000000000003#48 = .ok 0x00800000#32 := by decide
theorem witness_exec_answers (i : Instr) (s : State) : ∃ t, exec i s = .next t := by
  obtain ⟨w, a, h⟩ := exec_delivers i
  exact ⟨_, h s⟩
theorem witness_other_than_reserved : Instr.decs 0x000000000001#48 ≠ .op7 := by decide
theorem witness_step_answers : ∃ t, step (driven true 2 1) = .next t := ⟨_, rfl⟩
theorem witness_build : (driven true 0 0).build = ⟨true⟩ := rfl
theorem witness_instances : (1 : Nat) ≠ 0 ∧ ([driven false 0 0, driven true 1 1] : Instances)[0]? = some (driven false 0 0) := by
  decide
/-- ENCS: success with a nonzero result (L-4, L-6, L-8, value), at both ends of the range. -/
theorem witness_encs_success : ∃ t u : State,
    exec (.encs 0x00800000#32) State.reset = .next t ∧ t.err_o = 0b00#2 ∧ (0x00800000#32).extractLsb' 0 31 ≠ 0 ∧
    exec (.encs 0x7EFFFFFF#32) State.reset = .next u ∧ u.err_o = 0b00#2 :=
  ⟨_, _, rfl, by decide, by decide, rfl, by decide⟩
/-- ENCD: success with a nonzero result (L-3, L-8, L-11, value), at both ends of the range. -/
theorem witness_encd_success : ∃ t u : State,
    exec (.encd 0x37F0000000000000#64) State.reset = .next t ∧ t.err_o = 0b00#2 ∧
    (0x37F0000000000000#64).extractLsb' 0 63 ≠ 0 ∧
    exec (.encd 0x47DFFFFFFFFFFFFF#64) State.reset = .next u ∧ u.err_o = 0b00#2 :=
  ⟨_, _, rfl, by decide, by decide, rfl, by decide⟩
/-- DECS: success (L-5, L-8, value), at both ends of the range. -/
theorem witness_decs_success : ∃ t u : State,
    3 ≤ ((0x000000000003#48).extractLsb' 0 8).toNat ∧ exec (.decs 0x000000000003#48) State.reset = .next t ∧ t.err_o = 0b00#2 ∧
    3 ≤ ((0xFFFFFFFFFFFF#48).extractLsb' 0 8).toNat ∧ exec (.decs 0xFFFFFFFFFFFF#48) State.reset = .next u ∧ u.err_o = 0b00#2 :=
  ⟨_, _, by decide, rfl, by decide, by decide, rfl, by decide⟩
theorem witness_decd_answers : ∃ t : State, exec (.decd 0x000000000001#48) State.reset = .next t := ⟨_, rfl⟩
theorem witness_normal_value : (0x000000000001#48).extractLsb' 0 8 ≠ 0 ∧ (0xFFFFFFFFFFFF#48).extractLsb' 0 8 ≠ 0 := by decide
theorem witness_worked_table : Software.MatchesWorkedTable nearestEven := by
  unfold Software.MatchesWorkedTable; decide +kernel
theorem witness_compares_by_value : Software.ComparesByValue nearestEven := by
  intro x y vx vy hx hy
  simp [nearestEven, valueAbove, hx, hy]
theorem witness_zero_patterns : (0x800000000000#48).extractLsb' 0 8 = 0 ∧ (0x7FFFFFFFFF00#48).extractLsb' 0 8 = 0 := by decide
/-- The script statement: a first line that fails and one that succeeds, each used by a second line. -/
theorem witness_script : ∃ t u : State,
    ([4, 7, 14, 0, 0, 0, 0, 0, 0, 0, 0, 0, 0, 0, 0, 0] : List (BitVec 4)).length = literalDigits .ENCD ∧
    transact (encode (instrOf (literalValue [4, 7, 14, 0, 0, 0, 0, 0, 0, 0, 0, 0, 0, 0, 0, 0]) .ENCD)) State.reset = .next t ∧
    t.err_o ≠ 0b00#2 ∧
    transact (encode (instrOf (literalValue [3, 15, 15, 8, 0, 0, 0, 0, 0, 0, 0, 0, 0, 0, 0, 0]) .ENCD)) State.reset = .next u ∧
    u.err_o = 0b00#2 :=
  ⟨_, _, by decide, rfl, by decide, rfl, by decide⟩

end Sys2Proof.Tests
end

section
/-! STRICT_RANGE_ERROR (R7, D11): the two builds tell the cause of one failure apart, and nothing else. -/

namespace Sys2Proof.Machine

/-- R7: every other cause has the same kind in all builds. -/
theorem Cause.kind_eq_of_ne_decsUnderflow {c : Cause} (h : c ≠ .decsUnderflow) (b b' : Config.Build) :
    c.kind b = c.kind b' := by
  cases c with
  | decsUnderflow => exact absurd rfl h
  | encsNonfinite | encsSubnormal | encsExpRange | encdNonfinite | encdExpRange | reservedOp => rfl

/-- R37, R55: who reports RangeError. -/
theorem Cause.kind_eq_rangeError_iff (b : Config.Build) (c : Cause) :
    c.kind b = .rangeError ↔ c = .decsUnderflow ∧ b.strictRangeError = true := by
  cases c with
  | decsUnderflow => simp [Cause.kind]
  | encsNonfinite | encsSubnormal | encsExpRange | encdNonfinite | encdExpRange | reservedOp => simp [Cause.kind]

variable {w : Nat}

/-- R59: a failure shows zero whatever its kind, so the result port is the same in all builds. -/
theorem Attempt.outcome_res_eq (a : Attempt w) (b b' : Config.Build) : (a.outcome b).res = (a.outcome b').res := by
  cases a with
  | ok v => rfl
  | raise c => rfl

theorem Attempt.outcome_eq_of_ne_decsUnderflow {a : Attempt w} (h : a ≠ .raise .decsUnderflow) (b b' : Config.Build) :
    a.outcome b = a.outcome b' := by
  cases a with
  | ok v => rfl
  | raise c =>
    have hc : c ≠ .decsUnderflow := fun hc => h (congrArg Attempt.raise hc)
    simp [Cause.kind_eq_of_ne_decsUnderflow hc b b']

/-- R30, R37: when `err_o` shows RangeError. -/
theorem Attempt.outcome_err_o_eq_rangeError_iff (b : Config.Build) (a : Attempt w) :
    (a.outcome b).err_o = 0b10#2 ↔ a = .raise .decsUnderflow ∧ b.strictRangeError = true := by
  cases a with
  | ok v => simp
  | raise c =>
    have hcode : (c.kind b).code = 0b10#2 ↔ c.kind b = .rangeError :=
      ⟨ErrKind.code_injective _ .rangeError, fun h => by rw [h]; rfl⟩
    simpa [hcode] using Cause.kind_eq_rangeError_iff b c

/-- R37: the exponent fields whose single would be subnormal or zero. -/
theorem decs_eq_decsUnderflow_iff (v : Real48) : decs v = .raise .decsUnderflow ↔ e48 v = 1 ∨ e48 v = 2 := by
  have hfield : (e48 v = 1 ∨ e48 v = 2) ↔ (e48 v).toNat = 1 ∨ (e48 v).toNat = 2 := by simp [BitVec.toNat_eq]
  rw [hfield]
  obtain ⟨h0, hv⟩ | ⟨h12, hv⟩ | ⟨h3, hv⟩ := decs_cases v
  · simp [hv, h0]
  · simp [hv, h12]
  · simp only [hv, reduceCtorEq, false_iff]; omega

theorem encs_ne_decsUnderflow (x : Single) : encs x ≠ .raise .decsUnderflow := by
  obtain ⟨-, -, h⟩ | ⟨-, -, h⟩ | ⟨-, h⟩ | ⟨-, -, h⟩ | ⟨-, h⟩ := encs_cases x <;> simp [h]

theorem encd_ne_decsUnderflow (x : Double) : encd x ≠ .raise .decsUnderflow := by
  obtain ⟨-, -, h⟩ | ⟨-, -, h⟩ | ⟨-, h⟩ | ⟨-, -, h⟩ := encd_cases x <;> simp [h]

/-- The instructions that end in the one failure the build decides about (R37). -/
def UnderflowsToSingle (i : Instr) : Prop := ∃ v : Real48, i = .decs v ∧ (e48 v = 1 ∨ e48 v = 2)

theorem underflowsToSingle_decs (v : Real48) : UnderflowsToSingle (.decs v) ↔ e48 v = 1 ∨ e48 v = 2 := by
  simp [UnderflowsToSingle]

theorem not_underflowsToSingle_of_ne_decs {i : Instr} (h : ∀ v, i ≠ .decs v) : ¬ UnderflowsToSingle i :=
  fun ⟨v, hi, _⟩ => h v hi

/-- `exec_delivers`, with what distinguishes the delivered attempt as far as the build is concerned. -/
theorem exec_delivers_decsUnderflow_iff (i : Instr) : ∃ (w : Nat) (a : Attempt w),
    (∀ s : State, exec i s = .next (s.deliver a)) ∧ (a = .raise .decsUnderflow ↔ UnderflowsToSingle i) := by
  cases i with
  | encs x => exact ⟨48, encs x, fun _ => rfl,
      iff_of_false (encs_ne_decsUnderflow x) (not_underflowsToSingle_of_ne_decs nofun)⟩
  | encd x => exact ⟨48, encd x, fun _ => rfl,
      iff_of_false (encd_ne_decsUnderflow x) (not_underflowsToSingle_of_ne_decs nofun)⟩
  | decs v => exact ⟨32, decs v, fun _ => rfl,
      (decs_eq_decsUnderflow_iff v).trans (underflowsToSingle_decs v).symm⟩
  | decd v => exact ⟨64, .ok (decd v), fun _ => rfl, iff_of_false nofun (not_underflowsToSingle_of_ne_decs nofun)⟩
  | xsign v => exact ⟨1, .ok (xsign v), fun _ => rfl, iff_of_false nofun (not_underflowsToSingle_of_ne_decs nofun)⟩
  | xexp v => exact ⟨8, .ok (xexp v), fun _ => rfl, iff_of_false nofun (not_underflowsToSingle_of_ne_decs nofun)⟩
  | xfrac v => exact ⟨39, .ok (xfrac v), fun _ => rfl, iff_of_false nofun (not_underflowsToSingle_of_ne_decs nofun)⟩
  | op7 => exact ⟨64, reserved, fun _ => rfl, iff_of_false nofun (not_underflowsToSingle_of_ne_decs nofun)⟩

/-- Settles O16: the two builds deliver the same attempt, and only the underflow of DECS has a kind that the build decides. -/
theorem strictSettingChangesOnlyTheUnderflowKind : Obligations.StrictSettingChangesOnlyTheUnderflowKind := by
  intro i s
  obtain ⟨w, a, hexec, hunder⟩ := exec_delivers_decsUnderflow_iff i
  refine ⟨_, _, hexec _, hexec _, a.outcome_res_eq ⟨true⟩ ⟨false⟩, ?_, fun h => ?_, fun h => ?_⟩
  · intro hrange
    exact Bool.false_ne_true ((a.outcome_err_o_eq_rangeError_iff ⟨false⟩).1 hrange).2
  · obtain rfl := hunder.2 h
    exact ⟨rfl, rfl⟩
  · have ha : a ≠ .raise .decsUnderflow := fun ha => h (hunder.1 ha)
    exact congrArg TxOutcome.err_o (Attempt.outcome_eq_of_ne_decsUnderflow ha ⟨true⟩ ⟨false⟩)

end Sys2Proof.Machine
end

section
/-! Single to Real48 to double (law L-6): the offsets 2 and 894 of R6 add up to 896, and the appended zeros to 29. -/

namespace Sys2Proof.Machine

/-- The double with the fields of a single: the exponent field moved from bias 127 to bias 1023 (R12, R13), 29 zero bits
appended to the fraction. -/
def widenSingle (x : Single) : Double :=
  packDouble (s32 x) ((exp32 x).setWidth 11 + 896#11) (frac32 x ++ 0#29)

/-- The widened pattern in the concatenated form of the statement. -/
theorem widenSingle_eq_append (x : Single) :
    widenSingle x =
      x.extractLsb' 31 1 ++ ((x.extractLsb' 23 8).setWidth 11 + 896#11) ++ x.extractLsb' 0 23 ++ 0#29 := by
  apply BitVec.eq_of_toNat_eq
  rw [widenSingle, packDouble_toNat]
  simp only [append_toNat, s32, exp32, frac32, BitVec.toNat_ofNat]
  omega

/-- Everything a successful ENCS of a nonzero single can be (R35). -/
theorem encs_ok_of_nonzero {x : Single} {v : Real48} (hx : x.extractLsb' 0 31 ≠ 0) (h : encs x = .ok v) :
    1 ≤ (exp32 x).toNat ∧ (exp32 x).toNat ≤ 253 ∧ v = pack48 (s32 x) (exp32 x + 2#8) (frac32 x ++ 0#16) := by
  obtain ⟨he, hf, -⟩ | ⟨h1, h253, hv⟩ | ⟨-, hr⟩ | ⟨-, -, hr⟩ | ⟨-, hr⟩ := encs_cases x
  · exact absurd ((single_zero_iff x).2 ⟨he, hf⟩) hx
  · exact ⟨h1, h253, Attempt.ok.inj (h.symm.trans hv)⟩
  all_goals simp [h] at hr

/-- R6: the offset of ENCS followed by the offset of DECD. -/
theorem offsets_encs_decd {e : BitVec 8} (h : e.toNat ≤ 253) :
    (e + 2#8).setWidth 11 + 894#11 = e.setWidth 11 + 896#11 := by
  apply BitVec.eq_of_toNat_eq
  simp only [BitVec.toNat_add, BitVec.toNat_setWidth, BitVec.toNat_ofNat]
  omega

/-- R6: the offset of ENCD after the widening is the offset of ENCS. -/
theorem offsets_widen_encd (e : BitVec 8) : (e.setWidth 11 + 896#11 - 894#11).setWidth 8 = e + 2#8 := by
  apply BitVec.eq_of_toNat_eq
  simp only [BitVec.toNat_sub, BitVec.toNat_add, BitVec.toNat_setWidth, BitVec.toNat_ofNat]
  omega

/-- The zeros appended by ENCS and by DECD are the 29 of the widening. -/
theorem append_zeros_16_13 (f : BitVec 23) : f ++ 0#16 ++ 0#13 = f ++ 0#29 := BitVec.append_assoc ..

/-- The 13 bits ENCD drops of the widened fraction are zeros; 16 zeros stay. -/
theorem extractLsb'_append_zeros_29 (f : BitVec 23) : (f ++ 0#29).extractLsb' 13 39 = f ++ 0#16 := by
  apply BitVec.eq_of_toNat_eq
  have := f.isLt
  simp only [BitVec.extractLsb'_toNat, append_toNat, BitVec.toNat_ofNat, Nat.shiftRight_eq_div_pow]
  omega

/-- Law L-6, first half: DECD of the encoded single is the widened single. -/
theorem decd_of_encs {x : Single} {v : Real48} (hx : x.extractLsb' 0 31 ≠ 0) (h : encs x = .ok v) :
    decd v = widenSingle x := by
  obtain ⟨h1, h253, rfl⟩ := encs_ok_of_nonzero hx h
  have hne : exp32 x + 2#8 ≠ 0 := by
    intro h0
    have := congrArg BitVec.toNat h0
    simp only [BitVec.toNat_add, BitVec.toNat_ofNat, BitVec.ofNat_eq_ofNat] at this
    omega
  obtain ⟨h0, -⟩ | ⟨-, hd⟩ := decd_cases (pack48 (s32 x) (exp32 x + 2#8) (frac32 x ++ 0#16))
  · exact absurd ((e48_pack48 ..).symm.trans h0) hne
  · rw [hd, s48_pack48, e48_pack48, f48_pack48, offsets_encs_decd h253, append_zeros_16_13, widenSingle]

/-- Law L-6, second half: ENCD of the widened single is ENCS of the single. -/
theorem encd_widenSingle {x : Single} {v : Real48} (hx : x.extractLsb' 0 31 ≠ 0) (h : encs x = .ok v) :
    encd (widenSingle x) = .ok v := by
  obtain ⟨h1, h253, rfl⟩ := encs_ok_of_nonzero hx h
  have hexp : exp64 (widenSingle x) = (exp32 x).setWidth 11 + 896#11 := exp64_packDouble ..
  have hnat : (exp64 (widenSingle x)).toNat = (exp32 x).toNat + 896 := by
    rw [hexp, BitVec.toNat_add, BitVec.toNat_setWidth, BitVec.toNat_ofNat]
    omega
  obtain ⟨h0, -⟩ | ⟨-, -, hv⟩ | ⟨h0, -⟩ | ⟨-, h0, -⟩ := encd_cases (widenSingle x)
  · simp only [h0, BitVec.ofNat_eq_ofNat, BitVec.toNat_ofNat] at hnat; omega
  · rw [hv, hexp, offsets_widen_encd, widenSingle, s64_packDouble, frac64_packDouble, extractLsb'_append_zeros_29]
  · simp only [h0, BitVec.ofNat_eq_ofNat, BitVec.toNat_ofNat] at hnat; omega
  · omega

/-- A Real48 result is read back whole from the result port (R29). -/
theorem setWidth_48_of_setWidth_64 (v : Real48) : (v.setWidth 64).setWidth 48 = v := by simp

theorem exec_encs_eq (x : Single) (s : State) : exec (.encs x) s = .next (s.deliver (encs x)) := rfl
theorem exec_encd_eq (x : Double) (s : State) : exec (.encd x) s = .next (s.deliver (encd x)) := rfl
theorem exec_decd_eq (v : Real48) (s : State) : exec (.decd v) s = .next (s.deliver (.ok (decd v))) := rfl

/-- Settles O33: the state after ENCS shows its value, DECD of it is the widened single, and ENCD of that is the value again. -/
theorem offsetsAgreeThroughReal48 : Obligations.OffsetsAgreeThroughReal48 := by
  intro x s t hstep hok hx
  obtain rfl : s.deliver (encs x) = t := Host.Outcome.next.inj ((exec_encs_eq x s).symm.trans hstep)
  obtain ⟨v, hv⟩ := (State.deliver_err_o_eq_zero (encs x) s).1 hok
  rw [hv, State.deliver_ok, setWidth_48_of_setWidth_64, ← widenSingle_eq_append, exec_decd_eq, exec_encd_eq,
    decd_of_encs hx hv, encd_widenSingle hx hv]
  exact ⟨by rw [State.deliver_ok, BitVec.setWidth_eq]; rfl, by rw [State.deliver_ok]⟩

end Sys2Proof.Machine
end

section
/-! Every step (R16): the attempt an instruction delivers is the reply of the sub-blocks, for both builds. The invariant of the
machine is read off that attempt. -/

namespace Sys2Proof.Machine

variable {w : Nat}

/-- R8: delivering writes the outputs only. -/
theorem State.sameInputs_deliver (a : Attempt w) (s : State) : s.SameInputs (s.deliver a) := ⟨rfl, rfl, rfl⟩

/-- R59: a delivered failure shows zero. -/
theorem State.failureShowsZero_deliver (a : Attempt w) (s : State) : (s.deliver a).FailureShowsZero := by
  obtain ⟨v, -, h⟩ | ⟨c, -, h⟩ := State.deliver_cases a s
  · exact .inl (by rw [h])
  · exact .inr (by rw [h]; rfl)

/-- R7, R55: a delivered RangeError is that of a strict build. -/
theorem State.rangeErrorOnlyWhenStrict_deliver (a : Attempt w) (s : State) :
    (s.deliver a).RangeErrorOnlyWhenStrict :=
  fun h => ((a.outcome_err_o_eq_rangeError_iff s.build).1 h).2

/-- A delivered outcome is the reply the host reads (R16). -/
theorem State.deliver_eq_reply (a : Attempt w) (s : State) :
    s.deliver a = { s with res_o := (a.outcome s.build).reply.res, err_o := (a.outcome s.build).reply.err } := rfl

/-- R39: the sign of the operand is bit 47 of the port. -/
theorem s48_real48Operand (src : Src) : s48 (real48Operand src) = src.extractLsb' 47 1 := by
  apply BitVec.eq_of_toNat_eq
  rw [s48_toNat, real48Operand_toNat, BitVec.extractLsb'_toNat, Nat.shiftRight_eq_div_pow]
  omega

/-- R40: the exponent of the operand is the low byte of the port. -/
theorem e48_real48Operand (src : Src) : e48 (real48Operand src) = src.extractLsb' 0 8 := by
  apply BitVec.eq_of_toNat_eq
  rw [e48_toNat, real48Operand_toNat, BitVec.extractLsb'_toNat, Nat.shiftRight_zero]
  omega

/-- R41: the fraction of the operand, by shifting the port and masking it. -/
theorem f48_real48Operand (src : Src) :
    (f48 (real48Operand src)).setWidth 64 = (src >>> 8) &&& 0x7FFFFFFFFF#64 := by
  have hmask : (0x7FFFFFFFFF#64).toNat = 2 ^ 39 - 1 := by decide
  apply BitVec.eq_of_toNat_eq
  rw [BitVec.toNat_setWidth, f48_toNat, real48Operand_toNat, BitVec.toNat_and, hmask, Nat.and_two_pow_sub_one_eq_mod,
    BitVec.toNat_ushiftRight, Nat.shiftRight_eq_div_pow]
  omega

/-- R15, R16: what the instruction on the input ports delivers is what the sub-blocks and the selection by `op_i` show. -/
theorem exec_decode_delivers_real48Core (op : OpCode) (src : Src) : ∃ (w : Nat) (a : Attempt w),
    (∀ s : State, exec (decode ⟨op, src⟩) s = .next (s.deliver a)) ∧
      ∀ b : Config.Build, (a.outcome b).reply = real48Core b op src := by
  obtain rfl | rfl | rfl | rfl | rfl | rfl | rfl | rfl := opCode_cases op
  · exact ⟨48, encs (singleOperand src), fun _ => rfl, fun b => (real48Core_encs b src).symm⟩
  · exact ⟨48, encd (doubleOperand src), fun _ => rfl, fun b => (real48Core_encd b src).symm⟩
  · exact ⟨32, decs (real48Operand src), fun _ => rfl, fun b => (real48Core_decs b src).symm⟩
  · refine ⟨64, .ok (decd (real48Operand src)), fun _ => rfl, fun b => ?_⟩
    rw [real48Core_decd, Attempt.outcome_ok, TxOutcome.reply, TxOutcome.res_ok, BitVec.setWidth_eq, TxOutcome.err_o_ok]
  · refine ⟨1, .ok (xsign (real48Operand src)), fun _ => rfl, fun b => ?_⟩
    rw [real48Core_xsign, fpSignExtractor, ← s48_real48Operand]; rfl
  · refine ⟨8, .ok (xexp (real48Operand src)), fun _ => rfl, fun b => ?_⟩
    rw [real48Core_xexp, fpExponentExtractor, ← e48_real48Operand]; rfl
  · refine ⟨39, .ok (xfrac (real48Operand src)), fun _ => rfl, fun b => ?_⟩
    rw [real48Core_xfrac, fpFractionExtractor, ← f48_real48Operand]; rfl
  · exact ⟨64, reserved, fun _ => rfl, fun b => (real48Core_op7 b src).symm⟩

/-- `exec_decode_delivers_real48Core` for a step from a given state. -/
theorem step_delivers_real48Core (s : State) : ∃ (w : Nat) (a : Attempt w),
    step s = .next (s.deliver a) ∧ (a.outcome s.build).reply = real48Core s.build s.op_i s.src_i := by
  obtain ⟨w, a, hexec, hreply⟩ := exec_decode_delivers_real48Core s.op_i s.src_i
  exact ⟨w, a, hexec s, hreply s.build⟩

/-- Settles O20: a step delivers one attempt; the parts of the invariant hold of every delivered attempt, and this one is the
reply of the sub-blocks. -/
theorem everyStepLeadsToTheInvariant : Obligations.EveryStepLeadsToTheInvariant := by
  intro s
  obtain ⟨w, a, hstep, hreply⟩ := step_delivers_real48Core s
  exact ⟨s.deliver a, hstep, hreply, State.failureShowsZero_deliver a s, State.rangeErrorOnlyWhenStrict_deliver a s,
    State.sameInputs_deliver a s⟩

/-- Settles O19: a step delivers the reply of the sub-blocks. -/
theorem stepAgreesWithTheSubBlocks : Obligations.StepAgreesWithTheSubBlocks := by
  intro s
  obtain ⟨w, a, hstep, hreply⟩ := step_delivers_real48Core s
  rw [hstep, State.deliver_eq_reply, hreply]

/-- Settles O17: whatever the instruction, it delivers one attempt, and delivering keeps the inputs. -/
theorem operationsWriteOnlyTheOutputs : Obligations.OperationsWriteOnlyTheOutputs := by
  intro i s t hstep
  obtain ⟨w, a, hexec⟩ := exec_delivers i
  obtain rfl : s.deliver a = t := Host.Outcome.next.inj ((hexec s).symm.trans hstep)
  exact State.sameInputs_deliver a s

/-- R27: a table word that decodes is a transaction word, and its instruction is that of the transaction it spells. -/
theorem decode_of_decodeTableWord {nbits w : Nat} {i : Instr} (h : decodeTableWord nbits w = some i) :
    decode (Transaction.ofWord (BitVec.ofNat 67 (w % 2 ^ nbits))) = i := by
  unfold decodeTableWord decodeNumber at h
  split at h
  case h_1 j hj =>
    obtain rfl : j = i := Option.some.inj h
    split at hj
    · exact Except.ok.inj hj
    · cases hj
  case h_2 => cases h

/-- Settles O1: `step` is `exec` of what stands on the inputs, and `withFetchWord` puts the word's transaction there. -/
theorem stepRunsTheDecodedInstruction : Obligations.StepRunsTheDecodedInstruction := by
  refine ⟨fun s => rfl, fun s nbits w i h => ?_⟩
  rw [step, withFetchWord_transaction, decode_of_decodeTableWord h]

end Sys2Proof.Machine
end

section
/-! The three formats (R9, R12, R13): their fields cover them, and which patterns the conversions never give (law L-8). -/

namespace Sys2Proof.Machine

/-- Settles O25: the fields packed are the pattern, and the packed pattern is the weighted sum. -/
theorem fieldsCoverTheFormats : Obligations.FieldsCoverTheFormats := by
  refine ⟨fun v => ⟨(pack48_fields v).symm, ?_⟩, fun x => ⟨(packSingle_fields x).symm, ?_⟩,
    fun x => ⟨(packDouble_fields x).symm, ?_⟩⟩
  · rw [← pack48_toNat, pack48_fields]
  · rw [← packSingle_toNat, packSingle_fields]
  · rw [← packDouble_toNat, packDouble_fields]

/-- R10: a pattern is no non-canonical zero when it is zero or its exponent field is not. -/
theorem real48Class_ne_nonCanonicalZero {v : Real48} (h : v = 0 ∨ e48 v ≠ 0) :
    real48Class v ≠ .nonCanonicalZero := by
  obtain rfl | he := h
  · decide
  · rw [real48Class, if_neg he]; decide

/-- R14: the exponent fields of the normal numbers. -/
theorem ieeeClass_eq_normal {w n : Nat} {exp : BitVec w} (frac : BitVec n) (h : 1 ≤ exp.toNat)
    (h' : exp.toNat < 2 ^ w - 1) : ieeeClass exp frac = .normal := by
  have hzero : exp ≠ 0 := by rintro rfl; simp at h
  have hones : exp ≠ BitVec.allOnes w := by rintro rfl; simp at h'
  rw [ieeeClass, if_neg hzero, if_neg hones]

/-- R35: a successful ENCS gives the all-zero pattern or a normal one. -/
theorem encs_ok_zero_or_normal {x : Single} {v : Real48} (h : encs x = .ok v) : v = 0 ∨ e48 v ≠ 0 := by
  obtain ⟨-, -, hv⟩ | ⟨h1, h253, hv⟩ | ⟨-, hr⟩ | ⟨-, -, hr⟩ | ⟨-, hr⟩ := encs_cases x
  · exact .inl (Attempt.ok.inj (h.symm.trans hv))
  · obtain rfl := Attempt.ok.inj (h.symm.trans hv)
    right
    rw [e48_pack48]
    bv_omega
  all_goals simp [h] at hr

/-- R36: a successful ENCD gives the all-zero pattern or a normal one. -/
theorem encd_ok_zero_or_normal {x : Double} {v : Real48} (h : encd x = .ok v) : v = 0 ∨ e48 v ≠ 0 := by
  obtain ⟨-, -, hv⟩ | ⟨h895, h1149, hv⟩ | ⟨-, hr⟩ | ⟨-, -, hr⟩ := encd_cases x
  · exact .inl (Attempt.ok.inj (h.symm.trans hv))
  · obtain rfl := Attempt.ok.inj (h.symm.trans hv)
    right
    rw [e48_pack48]
    bv_omega
  all_goals simp [h] at hr

/-- R37: a successful DECS gives the positive zero or a normal single. -/
theorem decs_ok_zero_or_normal {v : Real48} {x : Single} (h : decs v = .ok x) : x = 0 ∨ class32 x = .normal := by
  obtain ⟨-, hx⟩ | ⟨-, hr⟩ | ⟨h3, hx⟩ := decs_cases v
  · exact .inl (Attempt.ok.inj (h.symm.trans hx))
  · simp [h] at hr
  · obtain rfl := Attempt.ok.inj (h.symm.trans hx)
    have hexp : (e48 v - 2#8).toNat = (e48 v).toNat - 2 := by bv_omega
    have hlt := (e48 v).isLt
    right
    rw [class32, exp32_packSingle]
    exact ieeeClass_eq_normal _ (by omega) (by omega)

/-- R38: the exponent field of DECD as a number; it does not wrap. -/
theorem decd_exponent_toNat (e : BitVec 8) : (e.setWidth 11 + 894#11).toNat = e.toNat + 894 := by
  have := e.isLt
  simp only [BitVec.toNat_add, BitVec.toNat_setWidth, BitVec.toNat_ofNat]
  omega

/-- R38: DECD off zero gives a normal double, whatever the fields beside the exponent. -/
theorem ieeeClass_decd_exponent {n : Nat} (e : BitVec 8) (frac : BitVec n) :
    ieeeClass (e.setWidth 11 + 894#11) frac = .normal := by
  have := e.isLt
  have hexp := decd_exponent_toNat e
  exact ieeeClass_eq_normal frac (by omega) (by omega)

/-- R38: DECD gives the positive zero or a normal double. -/
theorem decd_zero_or_normal (v : Real48) : decd v = 0 ∨ class64 (decd v) = .normal := by
  obtain ⟨-, hd⟩ | ⟨-, hd⟩ := decd_cases v
  · exact .inl hd
  · right
    rw [hd, class64, exp64_packDouble, ieeeClass_decd_exponent]

theorem exec_decs_eq (v : Real48) (s : State) : exec (.decs v) s = .next (s.deliver (decs v)) := rfl

/-- R29, R30: after an evaluation that shows success, the attempt has a value and the result port carries it. -/
theorem res_o_of_success {w : Nat} {a : Attempt w} {i : Instr} {s t : State} (hexec : exec i s = .next (s.deliver a))
    (hstep : exec i s = .next t) (hok : t.err_o = 0b00#2) : ∃ v, a = .ok v ∧ t.res_o = v.setWidth 64 := by
  obtain rfl : s.deliver a = t := Host.Outcome.next.inj (hexec.symm.trans hstep)
  obtain ⟨v, rfl⟩ := (State.deliver_err_o_eq_zero a s).1 hok
  exact ⟨v, rfl, rfl⟩

/-- Settles O28: what stands on the result port is the value of the conversion, and its four `_zero_or_normal` lemmas say
which values there are. -/
theorem noSpecialResults : Obligations.NoSpecialResults := by
  refine ⟨fun x s t hstep hok => ?_, fun x s t hstep hok => ?_, fun v s t hstep hok => ?_, fun v s t hstep => ?_⟩
  · obtain ⟨v, hv, hres⟩ := res_o_of_success (exec_encs_eq x s) hstep hok
    rw [hres, setWidth_48_of_setWidth_64]
    exact real48Class_ne_nonCanonicalZero (encs_ok_zero_or_normal hv)
  · obtain ⟨v, hv, hres⟩ := res_o_of_success (exec_encd_eq x s) hstep hok
    rw [hres, setWidth_48_of_setWidth_64]
    exact real48Class_ne_nonCanonicalZero (encd_ok_zero_or_normal hv)
  · obtain ⟨x, hx, hres⟩ := res_o_of_success (exec_decs_eq v s) hstep hok
    have hport : (x.setWidth 64).setWidth 32 = x := by simp
    rw [hres, hport]
    exact (decs_ok_zero_or_normal hx).imp_left fun h => by rw [h]; rfl
  · obtain rfl : s.deliver (.ok (decd v)) = t := Host.Outcome.next.inj ((exec_decd_eq v s).symm.trans hstep)
    rw [State.deliver_ok, BitVec.setWidth_eq]
    exact decd_zero_or_normal v

end Sys2Proof.Machine
end

section
/-! Numeric values (R11, R14): DECD keeps the value, and the range of the normal values. -/

namespace Sys2Proof.Machine

/-- R14: the value of a normal pattern. -/
theorem ieeeValue_of_normal {w n : Nat} (bias : Int) (s : BitVec 1) {exp : BitVec w} {frac : BitVec n}
    (h : ieeeClass exp frac = .normal) :
    ieeeValue bias s exp frac =
      some (signFactor s * (1 + (frac.toNat : ℚ) / 2 ^ n) * (2 : ℚ) ^ ((exp.toNat : Int) - bias)) := by
  rw [ieeeValue, h]

/-- R11: the value on exponent field 0. -/
theorem value48_of_zero {v : Real48} (h : e48 v = 0) : value48 v = 0 := if_pos h

/-- R11: the value on the other exponent fields. -/
theorem value48_of_normal {v : Real48} (h : e48 v ≠ 0) :
    value48 v =
      signFactor (s48 v) * (1 + ((f48 v).toNat : ℚ) / 2 ^ 39) * (2 : ℚ) ^ (((e48 v).toNat : Int) - 129) := if_neg h

/-- Appended zero bits do not change a fraction. -/
theorem append_zeros_fraction {m : Nat} (f : BitVec m) (n : Nat) :
    ((f ++ 0#n).toNat : ℚ) / 2 ^ (m + n) = (f.toNat : ℚ) / 2 ^ m := by
  rw [append_toNat, BitVec.toNat_ofNat, Nat.zero_mod, Nat.add_zero, Nat.cast_mul, Nat.cast_pow, Nat.cast_ofNat, pow_add]
  exact mul_div_mul_right _ _ (by positivity)

/-- R38 with R11 and R14: the exponent 894 higher stands over a bias 894 higher, and the 13 appended bits are zeros. -/
theorem value64_decd (v : Real48) : value64 (decd v) = some (value48 v) := by
  obtain ⟨h0, hd⟩ | ⟨h0, hd⟩ := decd_cases v
  · rw [hd, value48_of_zero h0]; rfl
  · have hexp : ((((e48 v).toNat + 894 : ℕ) : Int) - Config.doubleBias) = ((e48 v).toNat : Int) - 129 := by
      rw [Config.doubleBias]; omega
    rw [hd, value64, s64_packDouble, exp64_packDouble, frac64_packDouble,
      ieeeValue_of_normal _ _ (ieeeClass_decd_exponent _ _), decd_exponent_toNat, hexp, value48_of_normal h0,
      ← append_zeros_fraction (f48 v) 13]

/-- Settles O34: the result port carries the whole double, whose value is that of the pattern. -/
theorem decdKeepsTheValue : Obligations.DecdKeepsTheValue := by
  intro v s
  refine ⟨_, exec_decd_eq v s, ?_⟩
  rw [State.deliver_ok, BitVec.setWidth_eq]
  exact value64_decd v

theorem abs_signFactor (s : BitVec 1) : |signFactor s| = 1 := by rw [signFactor, abs_pow, abs_neg, abs_one, one_pow]

/-- R11: the magnitude of a normal pattern. -/
theorem abs_value48_of_normal {v : Real48} (h : e48 v ≠ 0) :
    |value48 v| = (1 + ((f48 v).toNat : ℚ) / 2 ^ 39) * (2 : ℚ) ^ (((e48 v).toNat : Int) - 129) := by
  rw [value48_of_normal h, abs_mul, abs_mul, abs_signFactor, one_mul, abs_of_nonneg (by positivity),
    abs_of_nonneg (by positivity)]

/-- R11: the significand lies from 1 to one unit of the last place below 2. -/
theorem significand_bounds (f : BitVec 39) :
    1 ≤ 1 + (f.toNat : ℚ) / 2 ^ 39 ∧ 1 + (f.toNat : ℚ) / 2 ^ 39 ≤ 2 - (2 : ℚ) ^ (-39 : Int) := by
  have hf : (f.toNat : ℚ) + 1 ≤ 2 ^ 39 := by exact_mod_cast f.isLt
  have hlast : (2 : ℚ) ^ (-39 : Int) = 1 / 2 ^ 39 := by norm_num
  have hfrac : ((f.toNat : ℚ) + 1) / 2 ^ 39 ≤ 1 := (div_le_one (by positivity)).2 hf
  rw [add_div] at hfrac
  exact ⟨le_add_of_nonneg_right (by positivity), by linarith⟩

/-- R11: the exponent field of a normal pattern is 1 to 255, so the power of two is from 2^-128 to 2^126. -/
theorem exponent_power_bounds {e : BitVec 8} (h : e ≠ 0) :
    (2 : ℚ) ^ (-128 : Int) ≤ (2 : ℚ) ^ ((e.toNat : Int) - 129) ∧
      (2 : ℚ) ^ ((e.toNat : Int) - 129) ≤ (2 : ℚ) ^ (126 : Int) := by
  have hlt := e.isLt
  have hpos : e.toNat ≠ 0 := fun h0 => h (BitVec.eq_of_toNat_eq h0)
  exact ⟨zpow_le_zpow_right₀ one_le_two (by omega), zpow_le_zpow_right₀ one_le_two (by omega)⟩

/-- R46, R47: every normal magnitude lies between MIN and MAX. -/
theorem abs_value48_bounds {v : Real48} (h : e48 v ≠ 0) :
    (2 : ℚ) ^ (-128 : Int) ≤ |value48 v| ∧ |value48 v| ≤ (2 - (2 : ℚ) ^ (-39 : Int)) * (2 : ℚ) ^ (126 : Int) := by
  obtain ⟨hs1, hs2⟩ := significand_bounds (f48 v)
  obtain ⟨he1, he2⟩ := exponent_power_bounds h
  rw [abs_value48_of_normal h]
  constructor
  · calc (2 : ℚ) ^ (-128 : Int) ≤ (2 : ℚ) ^ (((e48 v).toNat : Int) - 129) := he1
      _ ≤ _ := le_mul_of_one_le_left (by positivity) hs1
  · exact mul_le_mul hs2 he2 (by positivity) (zero_le_one.trans (hs1.trans hs2))

/-- R11: the value of a positive normal pattern, its fields as numbers. -/
theorem value48_of_fields {v : Real48} {e f : Nat} (hs : s48 v = 0) (he : (e48 v).toNat = e) (hf : (f48 v).toNat = f)
    (h0 : e ≠ 0) : value48 v = (1 + (f : ℚ) / 2 ^ 39) * (2 : ℚ) ^ ((e : Int) - 129) := by
  have hne : e48 v ≠ 0 := fun h => h0 (by rw [← he, h]; rfl)
  rw [value48_of_normal hne, hs, he, hf, signFactor, BitVec.ofNat_eq_ofNat, BitVec.toNat_ofNat, Nat.zero_mod, pow_zero, one_mul]

theorem value48_smallest : value48 Software.smallest = (2 : ℚ) ^ (-128 : Int) := by
  rw [value48_of_fields (e := 1) (f := 0) (by decide) (by decide) (by decide) (by decide)]
  norm_num

theorem value48_largest :
    value48 Software.largest = (2 - (2 : ℚ) ^ (-39 : Int)) * (2 : ℚ) ^ (126 : Int) := by
  rw [value48_of_fields (e := 255) (f := 2 ^ 39 - 1) (by decide) (by decide) (by decide) (by decide)]
  norm_num

theorem value48_epsilon : value48 Software.epsilon = (2 : ℚ) ^ (-39 : Int) := by
  rw [value48_of_fields (e := 90) (f := 0) (by decide) (by decide) (by decide) (by decide)]
  norm_num

/-- R48: 1.0 and the pattern after it, one unit of the fraction higher. -/
theorem value48_one : value48 0x000000000081#48 = 1 := by
  rw [value48_of_fields (e := 129) (f := 0) (by decide) (by decide) (by decide) (by decide)]
  norm_num

theorem value48_next_one : value48 0x000000000181#48 = 1 + (2 : ℚ) ^ (-39 : Int) := by
  rw [value48_of_fields (e := 129) (f := 1) (by decide) (by decide) (by decide) (by decide)]
  norm_num

/-- Settles O38: the bounds of significand and power of two, and the values of the constants. -/
theorem rangeOfNormalValues : Obligations.RangeOfNormalValues := by
  refine ⟨fun v h => abs_value48_bounds h, value48_smallest, value48_largest, ?_⟩
  rw [value48_one, value48_next_one, value48_epsilon, add_sub_cancel_left]

end Sys2Proof.Machine
end

section
/-! Transactions one after another and side by side (R22 to R24): the reply is a function of the build and the transaction
alone, so nothing one transaction leaves behind reaches another. -/

namespace Sys2Proof.Machine

variable {w : Nat}

/-- R58: a delivered outcome replaces the one that stood there; delivering it again changes nothing. -/
@[simp] theorem State.deliver_deliver (a : Attempt w) (s : State) : (s.deliver a).deliver a = s.deliver a := rfl

/-- Settles O22: the step delivers an attempt that the two inputs decide, and it leaves them standing. -/
theorem evaluatingTwiceChangesNothing : Obligations.EvaluatingTwiceChangesNothing := by
  intro s t hstep
  obtain ⟨w, a, hdeliver⟩ := step_delivers s.op_i s.src_i
  obtain rfl : s.deliver a = t := Host.Outcome.next.inj ((hdeliver s rfl rfl).symm.trans hstep)
  calc step (s.deliver a) = .next ((s.deliver a).deliver a) := hdeliver _ rfl rfl
    _ = .next (s.deliver a) := by rw [State.deliver_deliver]

/-- R16, R23: every transaction is answered, with the reply of the sub-blocks to it, and the build stays. -/
theorem transact_answers (t : Transaction) (s : State) : ∃ u : State,
    transact t s = .next u ∧ u.reply = real48Core s.build t.op t.src ∧ u.build = s.build := by
  obtain ⟨u, hstep, hsettled, -, -, hop, hsrc, hbuild⟩ := everyStepLeadsToTheInvariant (s.present t)
  rw [State.Settled, hop, hsrc, hbuild] at hsettled
  exact ⟨u, hstep, hsettled, hbuild⟩

/-- R33: an answered transaction's reply heads the replies to the rest. -/
theorem runAll_cons {t : Transaction} {s u : State} (h : transact t s = .next u) (ts : List Transaction) :
    runAll (t :: ts) s = u.reply :: runAll ts u := by
  rw [runAll, h]

/-- R23: the replies to a program are those to its transactions one by one; of the state only the build matters. -/
theorem runAll_eq_map (ts : List Transaction) (s : State) :
    runAll ts s = ts.map fun t => real48Core s.build t.op t.src := by
  induction ts generalizing s with
  | nil => rfl
  | cons t ts ih =>
    obtain ⟨u, hnext, hreply, hbuild⟩ := transact_answers t s
    rw [runAll_cons hnext, ih, hreply, hbuild, List.map_cons]

/-- Settles O23: the one reply is that of the sub-blocks; a program's replies are the map of it over the transactions. -/
theorem transactionsAreIndependent : Obligations.TransactionsAreIndependent := by
  intro b t
  refine ⟨real48Core b t.op t.src, fun before after s hb => ?_⟩
  subst hb
  rw [runAll_eq_map]
  exact ⟨by simp, List.length_map _⟩

/-- R24: what a transaction on instance `k` does to the list. -/
theorem transactAt_of_getElem? {k : Nat} {us : Instances} {s : State} (hk : us[k]? = some s) {t : Transaction} {u : State}
    (h : transact t s = .next u) : transactAt k t us = us.set k u := by
  simp only [transactAt, hk, h]

/-- Log 21: a transaction on an instance the list does not hold. -/
theorem transactAt_of_getElem?_none {k : Nat} {us : Instances} (hk : us[k]? = none) (t : Transaction) :
    transactAt k t us = us := by
  simp only [transactAt, hk]

/-- Settles O24: the transaction sets entry `k`, if there is one, to the answer of that instance. -/
theorem instancesShareNothing : Obligations.InstancesShareNothing := by
  intro k t us
  refine ⟨fun j hj => ?_, fun s hk => ?_⟩
  · cases hk : us[k]? with
    | none => rw [transactAt_of_getElem?_none hk]
    | some s =>
      obtain ⟨u, hnext, -⟩ := transact_answers t s
      rw [transactAt_of_getElem? hk hnext, List.getElem?_set_ne hj.symm]
  · obtain ⟨u, hnext, -⟩ := transact_answers t s
    obtain ⟨hlt, -⟩ := List.getElem?_eq_some_iff.1 hk
    exact ⟨u, hnext, by rw [transactAt_of_getElem? hk hnext, List.getElem?_set_self hlt]⟩

end Sys2Proof.Machine
end

section
/-! The serialised form (R19): six bytes, the highest first. -/

namespace Sys2Proof.Machine

/-- R19: the bytes in the order they are stored. -/
theorem toList_toBytes (v : Real48) :
    (toBytes v).toList = (List.range 6).map fun i => v.extractLsb' (40 - 8 * i) 8 := rfl

/-- R19: each byte joins the ones above it, until the bytes are the whole pattern. -/
theorem ofBytes_toBytes (v : Real48) : ofBytes (toBytes v) = v := by
  simp only [ofBytes, toBytes, BitVec.extractLsb'_append_extractLsb'_eq_extractLsb', BitVec.extractLsb'_eq_self]

/-- R19: a byte of the joined pattern lies above the bytes joined after it, and is the last of those up to it. -/
theorem toBytes_ofBytes (b : SixBytes) : toBytes (ofBytes b) = b := by
  simp (disch := decide) only [toBytes, ofBytes, BitVec.extractLsb'_append_eq_of_le, BitVec.extractLsb'_append_eq_right,
    BitVec.extractLsb'_eq_self, Nat.reduceSub]

/-- Settles O27: the order of the bytes, and the two functions inverse to each other. -/
theorem sixBytesAreBigEndian : Obligations.SixBytesAreBigEndian := by
  refine ⟨fun v i hi => ?_, ofBytes_toBytes, toBytes_ofBytes⟩
  rw [toList_toBytes, List.getElem?_map, List.getElem?_range hi, Option.map_some]

end Sys2Proof.Machine
end

section
/-! Decoding and encoding (R26 to R28, R32). The one fact both rest on: encoding a decoded transaction clears its ignored
bits (`encode_decode`). So the decoder reads nothing above the operand width, and it keeps the operation code. -/

namespace Sys2Proof

/-- R27: the fields of a word put back together. -/
@[simp] theorem Transaction.word_ofWord (w : TWord) : (Transaction.ofWord w).word = w := by
  calc (Transaction.ofWord w).word = w.extractLsb' 64 3 ++ w.extractLsb' 0 64 := rfl
    _ = w.extractLsb' 0 67 := BitVec.extractLsb'_append_extractLsb'_eq_extractLsb' rfl
    _ = w := BitVec.extractLsb'_eq_self

/-- R27, R33: a number of more than 67 bits is no transaction word. -/
theorem decodeNumber_of_wide {w : Nat} (h : 2 ^ 67 ≤ w) : decodeNumber w = .error .widerThanT := by
  have hword : isTransactionWord w = false := decide_eq_false (Nat.not_lt.2 h)
  rw [decodeNumber, hword, if_neg Bool.false_ne_true]

/-! Transactions with their ignored bits cleared (R28, R32). -/

theorem Transaction.canonical_iff (t : Transaction) : t.canonical = true ↔ t.src.toNat < 2 ^ operandWidth t.op :=
  decide_eq_true_iff

@[simp] theorem Transaction.op_canonicalise (t : Transaction) : t.canonicalise.op = t.op := rfl

theorem Transaction.toNat_src_canonicalise (t : Transaction) :
    t.canonicalise.src.toNat = t.src.toNat % 2 ^ operandWidth t.op :=
  Nat.mod_eq_of_lt ((Nat.mod_le _ _).trans_lt t.src.isLt)

/-- The cleared transaction is known by its code and by what is left of `src_i`. -/
theorem Transaction.eq_canonicalise {t u : Transaction} (hop : u.op = t.op)
    (hsrc : u.src.toNat = t.src.toNat % 2 ^ operandWidth t.op) : u = t.canonicalise := by
  have hsrc' : u.src = t.canonicalise.src := BitVec.eq_of_toNat_eq (hsrc.trans t.toNat_src_canonicalise.symm)
  calc u = ⟨u.op, u.src⟩ := rfl
    _ = t.canonicalise := by rw [hop, hsrc']; rfl

@[simp] theorem Transaction.canonical_canonicalise (t : Transaction) : t.canonicalise.canonical = true := by
  rw [canonical_iff, toNat_src_canonicalise]
  exact Nat.mod_lt _ (Nat.two_pow_pos _)

theorem Transaction.canonicalise_of_canonical {t : Transaction} (h : t.canonical = true) : t.canonicalise = t :=
  (eq_canonicalise rfl (Nat.mod_eq_of_lt (t.canonical_iff.1 h)).symm).symm

/-- R28: two transactions that agree on the code and below its operand width are the same once cleared. -/
theorem Transaction.canonicalise_congr {op : OpCode} {src src' : Src}
    (h : src.toNat % 2 ^ operandWidth op = src'.toNat % 2 ^ operandWidth op) :
    Transaction.canonicalise ⟨op, src⟩ = Transaction.canonicalise ⟨op, src'⟩ :=
  eq_canonicalise rfl ((toNat_src_canonicalise _).trans h)

/-! Operands on `src_i` (R28). -/

theorem singleOperand_eq_setWidth (src : Src) : singleOperand src = src.setWidth 32 :=
  (BitVec.setWidth_eq_extractLsb' (by decide)).symm

theorem real48Operand_eq_setWidth (src : Src) : real48Operand src = src.setWidth 48 :=
  (BitVec.setWidth_eq_extractLsb' (by decide)).symm

@[simp] theorem singleOperand_setWidth (x : Single) : singleOperand (x.setWidth 64) = x := by
  rw [singleOperand_eq_setWidth, BitVec.setWidth_setWidth_of_le _ (by decide), BitVec.setWidth_eq]

@[simp] theorem real48Operand_setWidth (v : Real48) : real48Operand (v.setWidth 64) = v := by
  rw [real48Operand_eq_setWidth, BitVec.setWidth_setWidth_of_le _ (by decide), BitVec.setWidth_eq]

/-- The single operand written back on `src_i`: the bits above it are gone. -/
theorem toNat_setWidth_singleOperand (src : Src) : ((singleOperand src).setWidth 64).toNat = src.toNat % 2 ^ 32 := by
  rw [BitVec.toNat_setWidth_of_le (by decide), singleOperand_toNat]

/-- The Real48 operand written back on `src_i`: the bits above it are gone. -/
theorem toNat_setWidth_real48Operand (src : Src) : ((real48Operand src).setWidth 64).toNat = src.toNat % 2 ^ 48 := by
  rw [BitVec.toNat_setWidth_of_le (by decide), real48Operand_toNat]

/-! Decoder against encoder. -/

/-- R27, R28: the decoder loses no bit an operation reads. -/
@[simp] theorem decode_encode (i : Instr) : decode (encode i) = i := by
  cases i with
  | encs x => exact congrArg Instr.encs (singleOperand_setWidth x)
  | encd x => rfl
  | decs v => exact congrArg Instr.decs (real48Operand_setWidth v)
  | decd v => exact congrArg Instr.decd (real48Operand_setWidth v)
  | xsign v => exact congrArg Instr.xsign (real48Operand_setWidth v)
  | xexp v => exact congrArg Instr.xexp (real48Operand_setWidth v)
  | xfrac v => exact congrArg Instr.xfrac (real48Operand_setWidth v)
  | op7 => rfl

/-- R28, R32: a decoded transaction is encoded with its ignored bits written as zero. -/
theorem encode_decode (t : Transaction) : encode (decode t) = t.canonicalise := by
  obtain ⟨op, src⟩ := t
  obtain rfl | rfl | rfl | rfl | rfl | rfl | rfl | rfl := opCode_cases op
  · exact Transaction.eq_canonicalise rfl (toNat_setWidth_singleOperand src)
  · exact Transaction.eq_canonicalise rfl (Nat.mod_eq_of_lt src.isLt).symm
  · exact Transaction.eq_canonicalise rfl (toNat_setWidth_real48Operand src)
  · exact Transaction.eq_canonicalise rfl (toNat_setWidth_real48Operand src)
  · exact Transaction.eq_canonicalise rfl (toNat_setWidth_real48Operand src)
  · exact Transaction.eq_canonicalise rfl (toNat_setWidth_real48Operand src)
  · exact Transaction.eq_canonicalise rfl (toNat_setWidth_real48Operand src)
  · exact Transaction.eq_canonicalise rfl (Nat.mod_one _).symm

/-- R32: what the encoder writes has its ignored bits zero, since clearing them changes nothing. -/
@[simp] theorem canonical_encode (i : Instr) : (encode i).canonical = true := by
  have h : encode i = (encode i).canonicalise := by rw [← encode_decode, decode_encode]
  rw [h, Transaction.canonical_canonicalise]

/-- R28: the decoder does not see the ignored bits. -/
@[simp] theorem decode_canonicalise (t : Transaction) : decode t.canonicalise = decode t := by
  rw [← encode_decode, decode_encode]

/-- Settles O4: `decode_encode` and `encode_decode`, the second read on a canonical transaction too. -/
theorem decodeAndEncodeAgree : Obligations.DecodeAndEncodeAgree := by
  refine ⟨fun i => ⟨decode_encode i, canonical_encode i⟩, encode_decode, fun t h => ?_, Transaction.word_ofWord,
    fun w => decodeNumber_of_wide⟩
  rw [encode_decode, Transaction.canonicalise_of_canonical h]

/-- R28: two values of `src_i` that agree below the operand width ask for the same instruction. -/
theorem decode_congr {op : OpCode} {src src' : Src}
    (h : src.toNat % 2 ^ operandWidth op = src'.toNat % 2 ^ operandWidth op) : decode ⟨op, src⟩ = decode ⟨op, src'⟩ := by
  rw [← decode_canonicalise ⟨op, src⟩, Transaction.canonicalise_congr h, decode_canonicalise]

end Sys2Proof

namespace Sys2Proof.Machine

/-- Settles O3: the two steps run the same instruction, and the attempt it delivers is the same from both states. -/
theorem onlyTheOperandBitsAreRead : Obligations.OnlyTheOperandBitsAreRead := by
  refine ⟨fun src => ?_, rfl, fun s src' hlow => ?_⟩
  · rw [← singleOperand_eq_setWidth, ← real48Operand_eq_setWidth]
    exact ⟨rfl, rfl, rfl, rfl, rfl, rfl, rfl, rfl⟩
  · obtain ⟨w, a, hexec⟩ := exec_delivers (decode ⟨s.op_i, s.src_i⟩)
    have hstep : step { s with src_i := src' } = exec (decode ⟨s.op_i, s.src_i⟩) { s with src_i := src' } := by
      rw [decode_congr hlow]; rfl
    exact ⟨s.deliver a, _, hexec s, hstep.trans (hexec _), rfl, rfl⟩

end Sys2Proof.Machine
end

section
/-! The opcode table (R26): its rows are the eight codes, on the three highest bits of the word. -/

namespace Sys2Proof

open Laws.Code (codeOf)

/-- Every transaction the encoder writes carries its row's code. -/
theorem encode_op (i : Instr) : (encode i).op = codeOf i.mnemonic := by
  cases i with
  | encs x => exact Laws.Code.encs x
  | encd x => exact Laws.Code.encd x
  | decs v => exact Laws.Code.decs v
  | decd v => exact Laws.Code.decd v
  | xsign v => exact Laws.Code.xsign v
  | xexp v => exact Laws.Code.xexp v
  | xfrac v => exact Laws.Code.xfrac v
  | op7 => exact Laws.Code.op7

/-- R26: the decoder's row is that of `op_i`. -/
theorem codeOf_mnemonic_decode (t : Transaction) : codeOf (decode t).mnemonic = t.op := by
  rw [← encode_op, encode_decode, Transaction.op_canonicalise]

/-- The rows of the table as they come from the code of each. -/
theorem opcodeTable_masks_and_patterns :
    ∀ r ∈ opcodeTable, r.mask = BitVec.allOnes 3 ++ 0#64 ∧ r.pattern = codeOf r.mnemonic ++ 0#64 := by decide

theorem exists_row_of_mnemonic (m : Mnemonic) : ∃ r ∈ opcodeTable, r.mnemonic = m := by
  cases m <;> decide

theorem row_eq_of_codeOf_eq :
    ∀ r ∈ opcodeTable, ∀ r' ∈ opcodeTable, codeOf r.mnemonic = codeOf r'.mnemonic → r = r' := by decide

/-- A word belongs to the row whose code its `op` field is: the mask keeps that field and clears `src`. -/
theorem covers_iff {r : OpcodeRow} (hr : r ∈ opcodeTable) (w : TWord) :
    r.covers w = true ↔ (Transaction.ofWord w).op = codeOf r.mnemonic := by
  obtain ⟨hmask, hpattern⟩ := opcodeTable_masks_and_patterns r hr
  have hmasked : w &&& r.mask = (Transaction.ofWord w).op ++ 0#64 := by
    conv_lhs => rw [← Transaction.word_ofWord w]
    rw [hmask, Transaction.word, BitVec.and_append, BitVec.and_allOnes, BitVec.and_zero]
  rw [OpcodeRow.covers, beq_iff_eq, hmasked, hpattern, BitVec.append_left_inj]

/-- Settles O5: the row of the decoded instruction has the code of the word, and no two rows share a code. -/
theorem everyWordHasExactlyOneRow : Obligations.EveryWordHasExactlyOneRow := by
  intro w
  obtain ⟨r, hr, hmnemonic⟩ := exists_row_of_mnemonic (decode (Transaction.ofWord w)).mnemonic
  have hcode : (Transaction.ofWord w).op = codeOf r.mnemonic := by rw [hmnemonic, codeOf_mnemonic_decode]
  refine ⟨r, hr, (covers_iff hr w).2 hcode, hmnemonic, fun r' hr' hcovers => ?_⟩
  have hcode' : (Transaction.ofWord w).op = codeOf r'.mnemonic := (covers_iff hr' w).1 hcovers
  exact row_eq_of_codeOf_eq r' hr' r hr (hcode'.symm.trans hcode)

/-- Settles O2: nine closed numbers, decoded by evaluation. -/
theorem tableWordsDecodeToTheirRows : Obligations.TableWordsDecodeToTheirRows := by
  unfold Obligations.TableWordsDecodeToTheirRows; decide

end Sys2Proof
end

section
/-! The reserved code (R31): the cause of IllegalOp, and no other instruction has that cause. -/

namespace Sys2Proof.Machine

variable {w : Nat}

/-- R55, R56: who reports IllegalOp. -/
theorem Cause.kind_eq_illegalOp_iff (b : Config.Build) (c : Cause) : c.kind b = .illegalOp ↔ c = .reservedOp := by
  cases c with
  | decsUnderflow => cases hb : b.strictRangeError <;> simp [Cause.kind, hb]
  | encsNonfinite | encsSubnormal | encsExpRange | encdNonfinite | encdExpRange | reservedOp => simp [Cause.kind]

/-- R30: each kind has its own code. -/
theorem ErrKind.code_inj (k k' : ErrKind) : k.code = k'.code ↔ k = k' :=
  ⟨ErrKind.code_injective k k', congrArg ErrKind.code⟩

/-- R30, R31: when `err_o` shows IllegalOp. -/
theorem State.deliver_err_o_eq_illegalOp_iff (a : Attempt w) (s : State) :
    (s.deliver a).err_o = 0b11#2 ↔ a = .raise .reservedOp := by
  cases a with
  | ok v => simp [State.deliver_ok]
  | raise c =>
    have hcode : (c.kind s.build).code = 0b11#2 ↔ c.kind s.build = .illegalOp := ErrKind.code_inj _ .illegalOp
    simpa [State.deliver_raise, hcode] using Cause.kind_eq_illegalOp_iff s.build c

theorem encs_ne_reservedOp (x : Single) : encs x ≠ .raise .reservedOp := by
  obtain ⟨-, -, h⟩ | ⟨-, -, h⟩ | ⟨-, h⟩ | ⟨-, -, h⟩ | ⟨-, h⟩ := encs_cases x <;> simp [h]

theorem encd_ne_reservedOp (x : Double) : encd x ≠ .raise .reservedOp := by
  obtain ⟨-, -, h⟩ | ⟨-, -, h⟩ | ⟨-, h⟩ | ⟨-, -, h⟩ := encd_cases x <;> simp [h]

theorem decs_ne_reservedOp (v : Real48) : decs v ≠ .raise .reservedOp := by
  obtain ⟨-, h⟩ | ⟨-, h⟩ | ⟨-, h⟩ := decs_cases v <;> simp [h]

/-- R31: "No value of `src_i` is illegal for any of the seven operations": none of them delivers the reserved code's cause. -/
theorem exec_delivers_ne_reservedOp {i : Instr} (hi : i ≠ .op7) : ∃ (w : Nat) (a : Attempt w),
    (∀ s : State, exec i s = .next (s.deliver a)) ∧ a ≠ .raise .reservedOp := by
  cases i with
  | encs x => exact ⟨48, encs x, fun _ => rfl, encs_ne_reservedOp x⟩
  | encd x => exact ⟨48, encd x, fun _ => rfl, encd_ne_reservedOp x⟩
  | decs v => exact ⟨32, decs v, fun _ => rfl, decs_ne_reservedOp v⟩
  | decd v => exact ⟨64, .ok (decd v), fun _ => rfl, nofun⟩
  | xsign v => exact ⟨1, .ok (xsign v), fun _ => rfl, nofun⟩
  | xexp v => exact ⟨8, .ok (xexp v), fun _ => rfl, nofun⟩
  | xfrac v => exact ⟨39, .ok (xfrac v), fun _ => rfl, nofun⟩
  | op7 => exact absurd rfl hi

/-- R31: the reserved code's whole effect. -/
theorem exec_op7_eq (s : State) : exec .op7 s = .next { s with res_o := 0, err_o := 0b11#2 } := rfl

/-- Settles O13: the reserved code shows code 3, and of the delivered attempts only its own does. -/
theorem reservedCodeRepliesIllegalOp : Obligations.ReservedCodeRepliesIllegalOp := by
  refine ⟨exec_op7_eq, fun s hop => ?_, fun i s hi => ?_⟩
  · have hdecode : decode s.transaction = .op7 := by rw [State.transaction, hop, decode_op7]
    have hstep : step s = .next { s with res_o := 0, err_o := 0b11#2 } := by rw [step, hdecode, exec_op7_eq]
    exact ⟨_, hstep, rfl, rfl, rfl⟩
  · obtain ⟨w, a, hexec, hne⟩ := exec_delivers_ne_reservedOp hi
    exact ⟨_, hexec s, fun h => hne ((State.deliver_err_o_eq_illegalOp_iff a s).1 h)⟩

end Sys2Proof.Machine
end

section
/-! The transaction script (R32): one line run, and what the name it binds stands for afterwards (R53). -/

namespace Sys2Proof.Machine

/-- R53, R30: the result of a successful transaction is `res_o`. -/
theorem State.result?_of_success {s : State} (h : s.err_o = 0b00#2) : s.result? = some s.res_o := by
  simp [State.result?, State.outcome, outcomeOfReply, h]

/-- R53, R59: a failed transaction has no result. -/
theorem State.result?_of_failure {s : State} (h : s.err_o ≠ 0b00#2) : s.result? = none := by
  have hcodes : ∀ e : ErrCode, e ≠ 0b00#2 → e = 0b01#2 ∨ e = 0b10#2 ∨ e = 0b11#2 := by decide
  obtain he | he | he := hcodes s.err_o h <;> simp [State.result?, State.outcome, outcomeOfReply, he]

theorem ScriptLine.operandValue_literal {l : ScriptLine} {digits : List (BitVec 4)} (h : l.operand = .literal digits)
    (hlen : digits.length = literalDigits l.mnemonic) (env : ScriptEnv) :
    l.operandValue env = .ok (literalValue digits) := by
  simp [operandValue, h, hlen]

theorem ScriptLine.operandValue_name {l : ScriptLine} {n : ScriptName} {env : ScriptEnv} {r : Res}
    (h : l.operand = .name n) (hn : env.lookup n = some (some r)) : l.operandValue env = .ok r := by
  simp [operandValue, h, hn]

theorem ScriptLine.operandValue_failedName {l : ScriptLine} {n : ScriptName} {env : ScriptEnv}
    (h : l.operand = .name n) (hn : env.lookup n = some none) : l.operandValue env = .error (.failedName n) := by
  simp [operandValue, h, hn]

/-- R32: a line that binds a name leaves the result of its transaction under it. -/
theorem lookup_bindResult (n : ScriptName) (s : State) (env : ScriptEnv) :
    (bindResult (some n) s env).lookup n = some s.result? := by
  simp [bindResult]

/-- The end of a script with one more reply before the others. -/
def ScriptEnd.withFirst (r : Reply) (e : ScriptEnd) : ScriptEnd := { e with replies := r :: e.replies }

/-- R32, R33: a line whose operand has a value is one transaction, and the rest runs from where it ends. -/
theorem runScript_cons {l : ScriptLine} {env : ScriptEnv} {s t : State} {v : Src} (hv : l.operandValue env = .ok v)
    (ht : transact (l.transaction v) s = .next t) (ls : List ScriptLine) :
    runScript (l :: ls) env s = (runScript ls (bindResult l.bind t env) t).map (ScriptEnd.withFirst t.reply) := by
  simp only [runScript, hv, ht]
  cases runScript ls (bindResult l.bind t env) t with
  | error e => rfl
  | ok r => rfl

/-- R32: a line whose operand has no value ends the script with that error. -/
theorem runScript_cons_error {l : ScriptLine} {env : ScriptEnv} {e : ScriptError} (he : l.operandValue env = .error e)
    (ls : List ScriptLine) (s : State) : runScript (l :: ls) env s = .error e := by
  simp only [runScript, he]

/-- Settles O44: the second line finds the first line's result, or its failure, under the name. -/
theorem scriptNamesStandForResults : Obligations.ScriptNamesStandForResults := by
  intro l l' n digits s t hliteral hlen hbind hname ht
  have hfirst := runScript_cons (l.operandValue_literal hliteral hlen []) ht [l']
  have hlookup : (bindResult l.bind t []).lookup n = some t.result? := by rw [hbind, lookup_bindResult]
  refine ⟨fun hfail => ?_, fun hok => ?_⟩
  · rw [State.result?_of_failure hfail] at hlookup
    rw [hfirst, runScript_cons_error (l'.operandValue_failedName hname hlookup)]
    rfl
  · rw [State.result?_of_success hok] at hlookup
    obtain ⟨u, hu, -, -⟩ := transact_answers (l'.transaction t.res_o) t
    rw [hfirst, runScript_cons (l'.operandValue_name hname hlookup) hu]
    exact ⟨u, _, hu, rfl, rfl⟩

end Sys2Proof.Machine
end

section
/-! The replies of the encoders (R35, R36): the three kinds of pattern each tells apart, and what the ports show for each. -/

namespace Sys2Proof.Machine

/-- R34: packing as shift and or. -/
theorem pack48_eq_shiftLeft_or (s : BitVec 1) (e : BitVec 8) (f : BitVec 39) :
    pack48 s e f = (s.setWidth 48 <<< 47) ||| (f.setWidth 48 <<< 8) ||| e.setWidth 48 := by
  apply BitVec.eq_of_getLsbD_eq
  intro i hi
  simp only [pack48, BitVec.getLsbD_append, BitVec.getLsbD_or, BitVec.getLsbD_shiftLeft, BitVec.getLsbD_setWidth]
  rcases Nat.lt_or_ge i 8 with he | he
  · simp [hi, he, show i < 47 by omega]
  · rcases Nat.lt_or_ge i 47 with hf | hf
    · simp [hi, he, hf, show i - 8 < 39 by omega, show ¬ i < 8 by omega, show i - 8 < 48 by omega]
    · obtain rfl : i = 47 := by omega
      simp

/-- Settles O26: the extractors are the three fields. -/
theorem packAndExtractorsAreInverse : Obligations.PackAndExtractorsAreInverse :=
  ⟨fun s e f => ⟨pack48_eq_shiftLeft_or s e f, s48_pack48 s e f, e48_pack48 s e f, f48_pack48 s e f⟩, pack48_fields⟩

/-- R29: a packed pattern on the 64-bit result port. -/
theorem setWidth_64_pack48 (s : BitVec 1) (e : BitVec 8) (f : BitVec 39) :
    (pack48 s e f).setWidth 64 = 0#16 ++ s ++ f ++ e := by
  apply BitVec.eq_of_toNat_eq
  have := (pack48 s e f).isLt
  simp only [BitVec.toNat_setWidth, pack48_toNat, append_toNat, BitVec.toNat_ofNat] at this ⊢
  omega

/-- R35 told apart as the rule does: zeros, the exponents that stay in range, and everything else. -/
theorem encs_by_pattern (x : Single) :
    (x.extractLsb' 0 31 = 0 ∧ encs x = .ok 0) ∨
    (x.extractLsb' 0 31 ≠ 0 ∧ (1 ≤ (exp32 x).toNat ∧ (exp32 x).toNat ≤ 253) ∧
      encs x = .ok (pack48 (s32 x) (exp32 x + 2#8) (frac32 x ++ 0#16))) ∨
    (x.extractLsb' 0 31 ≠ 0 ∧ ¬ (1 ≤ (exp32 x).toNat ∧ (exp32 x).toNat ≤ 253) ∧
      ∃ c, encs x = .raise c ∧ ∀ b, c.kind b = .overflowError) := by
  simp only [ne_eq, single_zero_iff]
  obtain ⟨he, hf, h⟩ | ⟨h1, h253, h⟩ | ⟨he, h⟩ | ⟨he, hf, h⟩ | ⟨he, h⟩ := encs_cases x
  · exact .inl ⟨⟨he, hf⟩, h⟩
  · refine .inr (.inl ⟨fun hz => ?_, ⟨h1, h253⟩, h⟩)
    simp [hz.1] at h1
  · exact .inr (.inr ⟨by simp [he], by simp [he], _, h, fun _ => rfl⟩)
  · exact .inr (.inr ⟨fun hz => hf hz.2, by simp [he], _, h, fun _ => rfl⟩)
  · exact .inr (.inr ⟨by simp [he], by simp [he], _, h, fun _ => rfl⟩)

/-- R36 told apart as the rule does: zeros, the exponents that land in range, and everything else. -/
theorem encd_by_pattern (x : Double) :
    (x.extractLsb' 0 63 = 0 ∧ encd x = .ok 0) ∨
    (x.extractLsb' 0 63 ≠ 0 ∧ (895 ≤ (exp64 x).toNat ∧ (exp64 x).toNat ≤ 1149) ∧
      encd x = .ok (pack48 (s64 x) ((exp64 x - 894#11).setWidth 8) ((frac64 x).extractLsb' 13 39))) ∨
    (x.extractLsb' 0 63 ≠ 0 ∧ ¬ (895 ≤ (exp64 x).toNat ∧ (exp64 x).toNat ≤ 1149) ∧
      ∃ c, encd x = .raise c ∧ ∀ b, c.kind b = .overflowError) := by
  simp only [ne_eq, double_zero_iff]
  obtain ⟨he, hf, h⟩ | ⟨h895, h1149, h⟩ | ⟨he, h⟩ | ⟨hz, he, h⟩ := encd_cases x
  · exact .inl ⟨⟨he, hf⟩, h⟩
  · refine .inr (.inl ⟨fun hz => ?_, ⟨h895, h1149⟩, h⟩)
    simp [hz.1] at h895
  · exact .inr (.inr ⟨by simp [he], by simp [he], _, h, fun _ => rfl⟩)
  · exact .inr (.inr ⟨hz, by omega, _, h, fun _ => rfl⟩)

/-- R30, R59: what the ports show of an attempt that fails with OverflowError. -/
theorem State.deliver_overflowError {w : Nat} {c : Cause} {s : State} (h : c.kind s.build = .overflowError) :
    s.deliver (.raise c : Attempt w) = { s with res_o := 0, err_o := 0b01#2 } := by
  rw [State.deliver_raise, h]; rfl

/-- R29: the ENCS result on the port, in the concatenated form of the statement. -/
theorem setWidth_64_encs_result (x : Single) :
    (pack48 (s32 x) (exp32 x + 2#8) (frac32 x ++ 0#16)).setWidth 64 =
      0#16 ++ x.extractLsb' 31 1 ++ x.extractLsb' 0 23 ++ 0#16 ++ (x.extractLsb' 23 8 + 2#8) := by
  rw [setWidth_64_pack48]
  apply BitVec.eq_of_toNat_eq
  simp only [append_toNat, s32, exp32, frac32, BitVec.toNat_ofNat]
  omega

/-- The top 39 bits of the fraction field are bits 51 to 13 of the double. -/
theorem extractLsb'_frac64 (x : Double) : (frac64 x).extractLsb' 13 39 = x.extractLsb' 13 39 := by
  rw [frac64, BitVec.extractLsb'_extractLsb'_of_le (by decide)]

/-- Settles O6: a case per kind of pattern; the operand of code 000 is the low half of the port. -/
theorem encsRepliesByItsRule : Obligations.EncsRepliesByItsRule := by
  refine ⟨fun x s => ?_, fun s hop => ?_⟩
  · rw [exec_encs_eq]
    congr 1
    obtain ⟨hz, h⟩ | ⟨hz, he, h⟩ | ⟨hz, he, c, h, hkind⟩ := encs_by_pattern x
    · rw [if_pos hz, h]; rfl
    · rw [if_neg hz, h, State.deliver_ok, setWidth_64_encs_result]
      exact (if_pos he).symm
    · rw [if_neg hz, h, State.deliver_overflowError (hkind _)]
      exact (if_neg he).symm
  · rw [step, State.transaction, hop, decode_encs, singleOperand_eq_setWidth]

/-- Settles O7: a case per kind of pattern; the operand of code 001 is the whole port. -/
theorem encdRepliesByItsRule : Obligations.EncdRepliesByItsRule := by
  refine ⟨fun x s => ?_, fun s hop => ?_⟩
  · rw [exec_encd_eq]
    congr 1
    obtain ⟨hz, h⟩ | ⟨hz, he, h⟩ | ⟨hz, he, c, h, hkind⟩ := encd_by_pattern x
    · rw [if_pos hz, h]; rfl
    · rw [if_neg hz, h, State.deliver_ok, setWidth_64_pack48, extractLsb'_frac64]
      exact (if_pos he).symm
    · rw [if_neg hz, h, State.deliver_overflowError (hkind _)]
      exact (if_neg he).symm
  · rw [step, State.transaction, hop, decode_encd, doubleOperand]

end Sys2Proof.Machine
end

section
/-! Round trips that begin with an encoder (laws L-3, L-4): the offsets of R6 cancel and the appended zeros are dropped again. -/

namespace Sys2Proof.Machine

/-- R35, R56: a successful ENCS met a zero or an exponent that stays in range. -/
theorem encs_ok_cases {x : Single} {v : Real48} (h : encs x = .ok v) :
    (x.extractLsb' 0 31 = 0 ∧ v = 0) ∨
    (x.extractLsb' 0 31 ≠ 0 ∧ 1 ≤ (exp32 x).toNat ∧ (exp32 x).toNat ≤ 253 ∧
      v = pack48 (s32 x) (exp32 x + 2#8) (frac32 x ++ 0#16)) := by
  by_cases hz : x.extractLsb' 0 31 = 0
  · have hzero : encs x = .ok 0 := if_pos ((single_zero_iff x).1 hz)
    exact .inl ⟨hz, Attempt.ok.inj (h.symm.trans hzero)⟩
  · exact .inr ⟨hz, encs_ok_of_nonzero hz h⟩

/-- R36, R56: a successful ENCD met a zero or an exponent that lands in range. -/
theorem encd_ok_cases {x : Double} {v : Real48} (h : encd x = .ok v) :
    (x.extractLsb' 0 63 = 0 ∧ v = 0) ∨
    (x.extractLsb' 0 63 ≠ 0 ∧ 895 ≤ (exp64 x).toNat ∧ (exp64 x).toNat ≤ 1149 ∧
      v = pack48 (s64 x) ((exp64 x - 894#11).setWidth 8) ((frac64 x).extractLsb' 13 39)) := by
  obtain ⟨hz, h'⟩ | ⟨hz, ⟨h895, h1149⟩, h'⟩ | ⟨-, -, c, h', -⟩ := encd_by_pattern x
  · exact .inl ⟨hz, Attempt.ok.inj (h.symm.trans h')⟩
  · exact .inr ⟨hz, h895, h1149, Attempt.ok.inj (h.symm.trans h')⟩
  · simp [h] at h'

/-- R35: the exponent field ENCS gives, as a number; it does not wrap. -/
theorem encs_exponent_toNat {e : BitVec 8} (h : e.toNat ≤ 253) : (e + 2#8).toNat = e.toNat + 2 := by
  bv_omega

/-- R36: the exponent field ENCD gives, as a number; it does not wrap. -/
theorem encd_exponent_toNat {e : BitVec 11} (h : 895 ≤ e.toNat) (h' : e.toNat ≤ 1149) :
    ((e - 894#11).setWidth 8).toNat = e.toNat - 894 := by
  bv_omega

/-- Law L-4: DECS of an encoded single succeeds and gives it back, a zero as the positive zero. -/
theorem decs_of_encs {x : Single} {v : Real48} (h : encs x = .ok v) :
    decs v = .ok (if x.extractLsb' 0 31 = 0 then 0 else x) := by
  obtain ⟨hz, rfl⟩ | ⟨hz, h1, h253, rfl⟩ := encs_ok_cases h
  · rw [if_pos hz]; rfl
  · rw [if_neg hz]
    obtain ⟨h0, -⟩ | ⟨h0, -⟩ | ⟨-, hd⟩ := decs_cases (pack48 (s32 x) (exp32 x + 2#8) (frac32 x ++ 0#16))
    · rw [e48_pack48] at h0
      bv_omega
    · rw [e48_pack48, encs_exponent_toNat h253] at h0
      omega
    · have hfrac : (frac32 x ++ 0#16).extractLsb' 16 23 = frac32 x := by
        rw [BitVec.extractLsb'_append_eq_of_le (Nat.le_refl 16)]; simp
      rw [hd, s48_pack48, e48_pack48, f48_pack48, BitVec.add_sub_cancel, hfrac, packSingle_fields]

/-- Clearing the low 13 bits of a double clears those of its fraction field. -/
theorem and_mask_eq_packDouble (x : Double) :
    x &&& 0xFFFFFFFFFFFFE000#64 = packDouble (s64 x) (exp64 x) ((frac64 x).extractLsb' 13 39 ++ 0#13) := by
  have hmask : 0xFFFFFFFFFFFFE000#64 = BitVec.allOnes 51 ++ 0#13 := by decide
  have hsplit : x = x.extractLsb' 13 51 ++ x.extractLsb' 0 13 := by
    rw [BitVec.extractLsb'_append_extractLsb'_eq_extractLsb' (Nat.zero_add 13).symm, BitVec.extractLsb'_eq_self]
  have hand : x &&& 0xFFFFFFFFFFFFE000#64 = x.extractLsb' 13 51 ++ 0#13 := by
    conv_lhs => rw [hsplit]
    rw [hmask, BitVec.and_append, BitVec.and_allOnes, BitVec.and_zero]
  rw [hand]
  apply BitVec.eq_of_toNat_eq
  have := x.isLt
  rw [packDouble_toNat, append_toNat, append_toNat, s64_toNat, exp64_toNat, BitVec.extractLsb'_toNat,
    BitVec.extractLsb'_toNat, frac64_toNat]
  simp only [Nat.shiftRight_eq_div_pow, BitVec.toNat_ofNat]
  omega

/-- R6: the offset of ENCD followed by the offset of DECD. -/
theorem offsets_encd_decd {e : BitVec 11} (h : 895 ≤ e.toNat) (h' : e.toNat ≤ 1149) :
    ((e - 894#11).setWidth 8).setWidth 11 + 894#11 = e := by
  apply BitVec.eq_of_toNat_eq
  rw [decd_exponent_toNat, encd_exponent_toNat h h']
  omega

/-- Law L-3: DECD of an encoded double is the double with its low 13 bits cleared, a zero the positive zero. -/
theorem decd_of_encd {x : Double} {v : Real48} (h : encd x = .ok v) :
    decd v = if x.extractLsb' 0 63 = 0 then 0 else x &&& 0xFFFFFFFFFFFFE000#64 := by
  obtain ⟨hz, rfl⟩ | ⟨hz, h895, h1149, rfl⟩ := encd_ok_cases h
  · rw [if_pos hz]; rfl
  · rw [if_neg hz]
    obtain ⟨h0, -⟩ | ⟨-, hd⟩ :=
      decd_cases (pack48 (s64 x) ((exp64 x - 894#11).setWidth 8) ((frac64 x).extractLsb' 13 39))
    · rw [e48_pack48] at h0
      bv_omega
    · rw [hd, s48_pack48, e48_pack48, f48_pack48, offsets_encd_decd h895 h1149, and_mask_eq_packDouble]

/-- Settles O30: the result port carries the Real48 value, and DECD of it is law L-3. -/
theorem decdOfEncdClearsThirteenBits : Obligations.DecdOfEncdClearsThirteenBits := by
  intro x s t hstep hok
  obtain ⟨v, hv, hres⟩ := res_o_of_success (exec_encd_eq x s) hstep hok
  rw [hres, setWidth_48_of_setWidth_64, exec_decd_eq, State.deliver_ok, BitVec.setWidth_eq, decd_of_encd hv]
  rfl

/-- Settles O31: the result port carries the Real48 value, and DECS of it is law L-4. -/
theorem decsUndoesEncs : Obligations.DecsUndoesEncs := by
  intro x s t hstep hok
  obtain ⟨v, hv, hres⟩ := res_o_of_success (exec_encs_eq x s) hstep hok
  rw [hres, setWidth_48_of_setWidth_64, exec_decs_eq, decs_of_encs hv, State.deliver_ok,
    apply_ite (BitVec.setWidth 64)]
  rfl

end Sys2Proof.Machine
end

section
/-! Numeric values of the encoded patterns (R11, R14): ENCS keeps the value, ENCD truncates it toward zero. -/

namespace Sys2Proof.Machine

/-- R14: the value of a zero of either sign. -/
theorem ieeeValue_of_zero {w n : Nat} (bias : Int) (s : BitVec 1) {exp : BitVec w} {frac : BitVec n}
    (he : exp = 0) (hf : frac = 0) : ieeeValue bias s exp frac = some 0 := by
  rw [ieeeValue, ieeeClass, if_pos he, if_pos hf]

/-- R35 with R11 and R14: the exponent 2 higher stands over a bias 2 higher, and the 16 appended bits are zeros. -/
theorem value32_of_encs {x : Single} {v : Real48} (h : encs x = .ok v) : value32 x = some (value48 v) := by
  obtain ⟨hz, rfl⟩ | ⟨-, h1, h253, rfl⟩ := encs_ok_cases h
  · obtain ⟨he, hf⟩ := (single_zero_iff x).1 hz
    exact ieeeValue_of_zero _ _ he hf
  · have hexp := encs_exponent_toNat h253
    have hne : e48 (pack48 (s32 x) (exp32 x + 2#8) (frac32 x ++ 0#16)) ≠ 0 := by
      rw [e48_pack48]; bv_omega
    have hbias : (((exp32 x).toNat + 2 : ℕ) : Int) - 129 = ((exp32 x).toNat : Int) - Config.singleBias := by
      rw [Config.singleBias]; omega
    rw [value48_of_normal hne, s48_pack48, e48_pack48, f48_pack48, hexp, hbias, append_zeros_fraction (frac32 x) 16,
      value32, ieeeValue_of_normal _ _ (ieeeClass_eq_normal _ h1 (by omega))]

/-- Settles O35: the result port carries the value of ENCS. -/
theorem encsKeepsTheValue : Obligations.EncsKeepsTheValue := by
  intro x s t hstep hok
  obtain ⟨v, hv, hres⟩ := res_o_of_success (exec_encs_eq x s) hstep hok
  rw [hres, setWidth_48_of_setWidth_64]
  exact value32_of_encs hv

/-- Dropping the low `k` bits of a fraction of `m + k` bits lowers it by less than one unit of the last bit kept. -/
theorem dropped_fraction_bounds (n m k : Nat) :
    ((n / 2 ^ k : ℕ) : ℚ) / 2 ^ m ≤ (n : ℚ) / 2 ^ (m + k) ∧
      (n : ℚ) / 2 ^ (m + k) < ((n / 2 ^ k : ℕ) : ℚ) / 2 ^ m + 1 / 2 ^ m := by
  have hpos : (0 : ℚ) < 2 ^ m := by positivity
  have hfloor : ((n / 2 ^ k : ℕ) : ℚ) ≤ (n : ℚ) / 2 ^ k := by exact_mod_cast Nat.cast_div_le (α := ℚ)
  have hceil : (n : ℚ) / 2 ^ k < ((n / 2 ^ k : ℕ) : ℚ) + 1 := by
    rw [div_lt_iff₀' (by positivity)]
    exact_mod_cast Nat.lt_mul_div_succ n (Nat.two_pow_pos k)
  rw [pow_add, mul_comm, ← div_div, ← add_div]
  exact ⟨(div_le_div_iff_of_pos_right hpos).2 hfloor, (div_lt_div_iff_of_pos_right hpos).2 hceil⟩

/-- The two values of a truncation, `b` the significand before it and `a` after, the sign and the power of two the same:
the signs agree, and the magnitude shrinks by less than `d` times that power. -/
theorem truncation_bounds (s : BitVec 1) {a b d p : ℚ} (ha : 0 ≤ a) (hab : a ≤ b) (hd : b < a + d) (hp : 0 < p) :
    0 ≤ signFactor s * b * p * (signFactor s * a * p) ∧
      |signFactor s * a * p| ≤ |signFactor s * b * p| ∧
      |signFactor s * b * p| - |signFactor s * a * p| < d * p := by
  have habs : ∀ c : ℚ, 0 ≤ c → |signFactor s * c * p| = c * p := fun c hc => by
    rw [abs_mul, abs_mul, abs_signFactor, one_mul, abs_of_nonneg hc, abs_of_pos hp]
  rw [habs a ha, habs b (ha.trans hab), ← sub_mul]
  refine ⟨?_, mul_le_mul_of_nonneg_right hab hp.le, mul_lt_mul_of_pos_right (by linarith) hp⟩
  calc 0 ≤ (signFactor s * p) ^ 2 * (b * a) := mul_nonneg (sq_nonneg _) (mul_nonneg (ha.trans hab) ha)
    _ = _ := by ring

/-- R11: the weight of the last of 39 fraction bits. -/
theorem last_place_weight (e : Int) : (2 : ℚ) ^ (e - 39) = 1 / 2 ^ 39 * (2 : ℚ) ^ e := by
  rw [zpow_sub₀ two_ne_zero, zpow_ofNat, div_mul_eq_mul_div, one_mul]

/-- R36: the fraction field ENCD gives, as a number. -/
theorem encd_fraction_toNat (f : BitVec 52) : (f.extractLsb' 13 39).toNat = f.toNat / 2 ^ 13 := by
  have := f.isLt
  rw [BitVec.extractLsb'_toNat, Nat.shiftRight_eq_div_pow]
  omega

/-- R36 with R11 and R14: the value of ENCD beside the value of its operand, the exponents standing over biases 894 apart. -/
theorem value64_of_encd {x : Double} {v : Real48} (h : encd x = .ok v) :
    ∃ q : ℚ, value64 x = some q ∧ 0 ≤ q * value48 v ∧ |value48 v| ≤ |q| ∧
      |q| - |value48 v| < (2 : ℚ) ^ (((e48 v).toNat : Int) - 129 - 39) := by
  obtain ⟨hz, rfl⟩ | ⟨-, h895, h1149, rfl⟩ := encd_ok_cases h
  · obtain ⟨he, hf⟩ := (double_zero_iff x).1 hz
    refine ⟨0, ieeeValue_of_zero _ _ he hf, ?_⟩
    rw [value48_of_zero rfl, mul_zero, abs_zero, sub_zero]
    exact ⟨le_rfl, le_rfl, by positivity⟩
  · have hne : e48 (pack48 (s64 x) ((exp64 x - 894#11).setWidth 8) ((frac64 x).extractLsb' 13 39)) ≠ 0 := by
      rw [e48_pack48]; bv_omega
    have hbias : (((exp64 x).toNat - 894 : ℕ) : Int) - 129 = ((exp64 x).toNat : Int) - Config.doubleBias := by
      rw [Config.doubleBias]; omega
    obtain ⟨hle, hlt⟩ := dropped_fraction_bounds (frac64 x).toNat 39 13
    refine ⟨_, ieeeValue_of_normal _ _ (ieeeClass_eq_normal _ (by omega) (by omega)), ?_⟩
    rw [value48_of_normal hne, s48_pack48, e48_pack48, f48_pack48, encd_exponent_toNat h895 h1149, hbias,
      encd_fraction_toNat, last_place_weight]
    exact truncation_bounds _ (by positivity) (by linarith) (by linarith) (by positivity)

/-- The exponent field is read from the result port as from the pattern (R9, R29). -/
theorem extractLsb'_setWidth_64 (v : Real48) : (v.setWidth 64).extractLsb' 0 8 = e48 v := by
  rw [e48, BitVec.extractLsb'_setWidth_of_le (by decide)]

/-- Settles O36: the result port carries the value of ENCD. -/
theorem encdTruncatesTowardZero : Obligations.EncdTruncatesTowardZero := by
  intro x s t hstep hok
  obtain ⟨v, hv, hres⟩ := res_o_of_success (exec_encd_eq x s) hstep hok
  rw [hres, setWidth_48_of_setWidth_64, extractLsb'_setWidth_64]
  exact value64_of_encd hv

end Sys2Proof.Machine
end

section
/-! The replies of the decoders (R37, R38): the kinds of pattern each tells apart, and what the ports show for each. -/

namespace Sys2Proof.Machine

/-- R37 on the exponent fields whose single is normal. -/
theorem decs_of_exponent_in_range {v : Real48} (h : 3 ≤ (e48 v).toNat) :
    decs v = .ok (packSingle (s48 v) (e48 v - 2#8) ((f48 v).extractLsb' 16 23)) := by
  obtain ⟨h0, -⟩ | ⟨h12, -⟩ | ⟨-, hd⟩ := decs_cases v
  · simp [h0] at h
  · omega
  · exact hd

/-- R37 told apart as the rule does: zeros, the exponents that underflow, and everything else. -/
theorem decs_by_pattern (v : Real48) :
    (e48 v = 0 ∧ decs v = .ok 0) ∨
    (e48 v ≠ 0 ∧ (e48 v = 1 ∨ e48 v = 2) ∧ decs v = .raise .decsUnderflow) ∨
    (e48 v ≠ 0 ∧ ¬ (e48 v = 1 ∨ e48 v = 2) ∧
      decs v = .ok (packSingle (s48 v) (e48 v - 2#8) ((f48 v).extractLsb' 16 23))) := by
  by_cases h0 : e48 v = 0
  · exact .inl ⟨h0, if_pos h0⟩
  · by_cases h12 : e48 v = 1 ∨ e48 v = 2
    · exact .inr (.inl ⟨h0, h12, (decs_eq_decsUnderflow_iff v).2 h12⟩)
    · exact .inr (.inr ⟨h0, h12, decs_of_exponent_in_range (by bv_omega)⟩)

/-- R7, R37: what the ports show of the underflow, by the build. -/
theorem State.deliver_decsUnderflow {w : Nat} (s : State) :
    s.deliver (.raise .decsUnderflow : Attempt w) =
      { s with res_o := 0, err_o := if s.build.strictRangeError then 0b10#2 else 0b01#2 } := by
  rw [State.deliver_raise, Cause.kind, apply_ite ErrKind.code]; rfl

/-- R29: a packed single on the 64-bit result port. -/
theorem setWidth_64_packSingle (s : BitVec 1) (e : BitVec 8) (f : BitVec 23) :
    (packSingle s e f).setWidth 64 = 0#32 ++ s ++ e ++ f := by
  apply BitVec.eq_of_toNat_eq
  have := (packSingle s e f).isLt
  simp only [BitVec.toNat_setWidth, packSingle_toNat, append_toNat, BitVec.toNat_ofNat] at this ⊢
  omega

/-- The top 23 bits of the fraction field are bits 46 to 24 of the pattern. -/
theorem extractLsb'_f48 (v : Real48) : (f48 v).extractLsb' 16 23 = v.extractLsb' 24 23 := by
  apply BitVec.eq_of_toNat_eq
  simp only [BitVec.extractLsb'_toNat, f48_toNat, Nat.shiftRight_eq_div_pow]
  omega

/-- Settles O8: a case per kind of pattern; the operand of code 010 is the low 48 bits of the port. -/
theorem decsRepliesByItsRule : Obligations.DecsRepliesByItsRule := by
  refine ⟨fun v s => ?_, fun s hop => ?_⟩
  · rw [exec_decs_eq]
    congr 1
    obtain ⟨h0, h⟩ | ⟨h0, h12, h⟩ | ⟨h0, h12, h⟩ := decs_by_pattern v
    · rw [h]
      exact (if_pos h0).symm
    · rw [h, State.deliver_decsUnderflow]
      exact ((if_neg h0).trans (if_pos h12)).symm
    · rw [h, State.deliver_ok, setWidth_64_packSingle, extractLsb'_f48]
      exact ((if_neg h0).trans (if_neg h12)).symm
  · rw [step, State.transaction, hop, decode_decs, real48Operand_eq_setWidth]

/-- The DECD result in the concatenated form of the statement. -/
theorem packDouble_decd_result (v : Real48) :
    packDouble (s48 v) ((e48 v).setWidth 11 + 894#11) (f48 v ++ 0#13) =
      v.extractLsb' 47 1 ++ ((v.extractLsb' 0 8).setWidth 11 + 894#11) ++ v.extractLsb' 8 39 ++ 0#13 := by
  apply BitVec.eq_of_toNat_eq
  rw [packDouble_toNat]
  simp only [append_toNat, s48, e48, f48, BitVec.toNat_ofNat]
  omega

/-- R38 on every pattern. -/
theorem decd_eq_ite (v : Real48) :
    decd v =
      if v.extractLsb' 0 8 = 0 then 0
      else v.extractLsb' 47 1 ++ ((v.extractLsb' 0 8).setWidth 11 + 894#11) ++ v.extractLsb' 8 39 ++ 0#13 := by
  rw [← packDouble_decd_result]
  obtain ⟨h0, h⟩ | ⟨h0, h⟩ := decd_cases v
  · rw [h]
    exact (if_pos h0).symm
  · rw [h]
    exact (if_neg h0).symm

/-- Settles O9: DECD never fails; the operand of code 011 is the low 48 bits of the port. -/
theorem decdRepliesByItsRule : Obligations.DecdRepliesByItsRule := by
  refine ⟨fun v s => ?_, fun s hop => ?_⟩
  · rw [exec_decd_eq, State.deliver_ok, BitVec.setWidth_eq, decd_eq_ite]
    rfl
  · rw [step, State.transaction, hop, decode_decd, real48Operand_eq_setWidth]

end Sys2Proof.Machine
end

section
/-! Round trips that begin with a decoder (laws L-2, L-5): the offsets of R6 cancel; DECS drops 16 fraction bits for good. -/

namespace Sys2Proof.Machine

/-- R36 on the exponent fields that land in range. -/
theorem encd_of_exponent_in_range {x : Double} (h : 895 ≤ (exp64 x).toNat) (h' : (exp64 x).toNat ≤ 1149) :
    encd x = .ok (pack48 (s64 x) ((exp64 x - 894#11).setWidth 8) ((frac64 x).extractLsb' 13 39)) := by
  obtain ⟨hz, -⟩ | ⟨-, -, he⟩ | ⟨-, hn, -⟩ := encd_by_pattern x
  · simp [((double_zero_iff x).1 hz).1] at h
  · exact he
  · exact absurd ⟨h, h'⟩ hn

/-- R35 on the exponent fields that stay in range. -/
theorem encs_of_exponent_in_range {x : Single} (h : 1 ≤ (exp32 x).toNat) (h' : (exp32 x).toNat ≤ 253) :
    encs x = .ok (pack48 (s32 x) (exp32 x + 2#8) (frac32 x ++ 0#16)) := by
  obtain ⟨hz, -⟩ | ⟨-, -, he⟩ | ⟨-, hn, -⟩ := encs_by_pattern x
  · simp [((single_zero_iff x).1 hz).1] at h
  · exact he
  · exact absurd ⟨h, h'⟩ hn

/-- R6: the offset of DECD followed by the offset of ENCD. -/
theorem offsets_decd_encd (e : BitVec 8) : (e.setWidth 11 + 894#11 - 894#11).setWidth 8 = e := by
  rw [BitVec.add_sub_cancel, BitVec.setWidth_setWidth_of_le _ (by decide), BitVec.setWidth_eq]

/-- Law L-2: ENCD of a decoded pattern succeeds and gives it back, a zero as the canonical zero. -/
theorem encd_of_decd (v : Real48) : encd (decd v) = .ok (if e48 v = 0 then 0 else v) := by
  obtain ⟨h0, hd⟩ | ⟨h0, hd⟩ := decd_cases v
  · rw [hd, if_pos h0]; rfl
  · have hexp : (exp64 (decd v)).toNat = (e48 v).toNat + 894 := by
      rw [hd, exp64_packDouble, decd_exponent_toNat]
    have hfrac : (f48 v ++ 0#13).extractLsb' 13 39 = f48 v := by
      rw [BitVec.extractLsb'_append_eq_of_le (Nat.le_refl 13)]; simp
    rw [encd_of_exponent_in_range (by bv_omega) (by omega), if_neg h0, hd, s64_packDouble, exp64_packDouble,
      frac64_packDouble, offsets_decd_encd, hfrac, pack48_fields]

/-- Settles O29: the result port carries the double, and ENCD of it is law L-2. -/
theorem encdUndoesDecd : Obligations.EncdUndoesDecd := by
  intro v s t hstep
  obtain rfl : s.deliver (.ok (decd v)) = t := Host.Outcome.next.inj ((exec_decd_eq v s).symm.trans hstep)
  rw [exec_encd_eq, State.deliver_res_o, Attempt.outcome_ok, TxOutcome.res_ok, BitVec.setWidth_eq, encd_of_decd,
    State.deliver_ok, apply_ite (BitVec.setWidth 64)]
  rfl

/-- R37: the exponent field DECS gives, as a number; it does not wrap. -/
theorem decs_exponent_toNat {e : BitVec 8} (h : 3 ≤ e.toNat) : (e - 2#8).toNat = e.toNat - 2 := by
  bv_omega

/-- Clearing the low 16 fraction bits of a pattern leaves sign, exponent and the top 23 bits of the fraction field. -/
theorem and_mask_eq_pack48 (v : Real48) :
    v &&& 0xFFFFFF0000FF#48 = pack48 (s48 v) (e48 v) ((f48 v).extractLsb' 16 23 ++ 0#16) := by
  have hmask : 0xFFFFFF0000FF#48 = pack48 (BitVec.allOnes 1) (BitVec.allOnes 8) (BitVec.allOnes 23 ++ 0#16) := by decide
  have hsplit : f48 v = (f48 v).extractLsb' 16 23 ++ (f48 v).extractLsb' 0 16 := by
    rw [BitVec.extractLsb'_append_extractLsb'_eq_extractLsb' (Nat.zero_add 16).symm, BitVec.extractLsb'_eq_self]
  have hfrac : f48 v &&& (BitVec.allOnes 23 ++ 0#16) = (f48 v).extractLsb' 16 23 ++ 0#16 := by
    conv_lhs => rw [hsplit]
    rw [BitVec.and_append, BitVec.and_allOnes, BitVec.and_zero]
  conv_lhs => rw [← pack48_fields v, hmask]
  rw [pack48, pack48, pack48, BitVec.and_append, BitVec.and_append, BitVec.and_allOnes, BitVec.and_allOnes, hfrac]

/-- Law L-5: ENCS of the single of a pattern in the range of DECS gives the pattern with its low 16 fraction bits cleared. -/
theorem encs_of_decs {v : Real48} {x : Single} (h3 : 3 ≤ (e48 v).toNat) (h : decs v = .ok x) :
    encs x = .ok (v &&& 0xFFFFFF0000FF#48) := by
  obtain rfl := Attempt.ok.inj ((decs_of_exponent_in_range h3).symm.trans h)
  have hlt := (e48 v).isLt
  have hexp : (exp32 (packSingle (s48 v) (e48 v - 2#8) ((f48 v).extractLsb' 16 23))).toNat = (e48 v).toNat - 2 := by
    rw [exp32_packSingle, decs_exponent_toNat h3]
  rw [encs_of_exponent_in_range (by omega) (by omega), s32_packSingle, exp32_packSingle, frac32_packSingle,
    BitVec.sub_add_cancel, and_mask_eq_pack48]

/-- A single result is read back whole from the result port (R29). -/
theorem setWidth_32_of_setWidth_64 (x : Single) : (x.setWidth 64).setWidth 32 = x := by simp

/-- Settles O32: the result port carries the single, and ENCS of it is law L-5. -/
theorem encsOfDecsClearsSixteenBits : Obligations.EncsOfDecsClearsSixteenBits := by
  intro v s t h3 hstep
  obtain rfl : s.deliver (decs v) = t := Host.Outcome.next.inj ((exec_decs_eq v s).symm.trans hstep)
  have hd := decs_of_exponent_in_range h3
  rw [hd, State.deliver_ok, setWidth_32_of_setWidth_64, exec_encs_eq, encs_of_decs h3 hd, State.deliver_ok]
  rfl

end Sys2Proof.Machine
end

section
/-! Numeric values of the decoded singles (R11, R14): DECS truncates toward zero. -/

namespace Sys2Proof.Machine

/-- R37, R56: a successful DECS met a zero or an exponent field of at least 3. -/
theorem decs_ok_cases {v : Real48} {x : Single} (h : decs v = .ok x) :
    (e48 v = 0 ∧ x = 0) ∨
    (3 ≤ (e48 v).toNat ∧ x = packSingle (s48 v) (e48 v - 2#8) ((f48 v).extractLsb' 16 23)) := by
  obtain ⟨h0, hx⟩ | ⟨-, hr⟩ | ⟨h3, hx⟩ := decs_cases v
  · exact .inl ⟨h0, Attempt.ok.inj (h.symm.trans hx)⟩
  · simp [h] at hr
  · exact .inr ⟨h3, Attempt.ok.inj (h.symm.trans hx)⟩

/-- R37: the fraction field DECS gives, as a number. -/
theorem decs_fraction_toNat (f : BitVec 39) : (f.extractLsb' 16 23).toNat = f.toNat / 2 ^ 16 := by
  have := f.isLt
  rw [BitVec.extractLsb'_toNat, Nat.shiftRight_eq_div_pow]
  omega

/-- R14: the weight of the last of 23 fraction bits. -/
theorem single_last_place_weight (e : Int) : (2 : ℚ) ^ (e - 23) = 1 / 2 ^ 23 * (2 : ℚ) ^ e := by
  rw [zpow_sub₀ two_ne_zero, zpow_ofNat, div_mul_eq_mul_div, one_mul]

/-- R37 with R11 and R14: the value of DECS beside the value of its operand, the exponents standing over biases 2 apart. -/
theorem value32_of_decs {v : Real48} {x : Single} (h : decs v = .ok x) :
    ∃ q : ℚ, value32 x = some q ∧ 0 ≤ q * value48 v ∧ |q| ≤ |value48 v| ∧
      |value48 v| - |q| < (2 : ℚ) ^ (((e48 v).toNat : Int) - 129 - 23) := by
  obtain ⟨h0, rfl⟩ | ⟨h3, rfl⟩ := decs_ok_cases h
  · refine ⟨0, rfl, ?_⟩
    rw [value48_of_zero h0, mul_zero, abs_zero, sub_zero]
    exact ⟨le_rfl, le_rfl, by positivity⟩
  · have hlt := (e48 v).isLt
    have hne : e48 v ≠ 0 := fun h0 => by simp [h0] at h3
    have hexp := decs_exponent_toNat h3
    have hbias : (((e48 v).toNat - 2 : ℕ) : Int) - Config.singleBias = ((e48 v).toNat : Int) - 129 := by
      rw [Config.singleBias]; omega
    obtain ⟨hle, hgap⟩ := dropped_fraction_bounds (f48 v).toNat 23 16
    rw [value32, s32_packSingle, exp32_packSingle, frac32_packSingle]
    refine ⟨_, ieeeValue_of_normal _ _ (ieeeClass_eq_normal _ (by omega) (by omega)), ?_⟩
    rw [value48_of_normal hne, hexp, hbias, decs_fraction_toNat, single_last_place_weight, mul_comm (_ * _ * _)]
    exact truncation_bounds _ (by positivity) (by linarith) (by linarith) (by positivity)

/-- Settles O37: the result port carries the single of DECS. -/
theorem decsTruncatesTowardZero : Obligations.DecsTruncatesTowardZero := by
  intro v s t hstep hok
  obtain ⟨x, hx, hres⟩ := res_o_of_success (exec_decs_eq v s) hstep hok
  rw [hres, setWidth_32_of_setWidth_64]
  exact value32_of_decs hx

end Sys2Proof.Machine
end

section
/-! The field extractors (R39 to R41): what each shows on the result port for every pattern, and the same field read from the
operand port, whose bits above 47 have no effect. -/

namespace Sys2Proof.Machine

/-- A mask of `k` ones keeps the remainder modulo `2 ^ k`. -/
theorem toNat_and_low_mask {w k : Nat} (x : BitVec w) {m : BitVec w} (hm : m.toNat = 2 ^ k - 1) :
    (x &&& m).toNat = x.toNat % 2 ^ k := by
  rw [BitVec.toNat_and, hm, Nat.and_two_pow_sub_one_eq_mod]

/-- R26: the code on `op_i` chooses the instruction of a step. -/
theorem step_of_op_i {s : State} {op : OpCode} (hop : s.op_i = op) : step s = exec (decode ⟨op, s.src_i⟩) s := by
  rw [← hop]; rfl

/-! XSIGN. -/

/-- R9: the sign field is bit 47. -/
theorem s48_eq_ofBool (v : Real48) : s48 v = BitVec.ofBool (v.getLsbD 47) := by
  rw [s48, ← BitVec.setWidth_ushiftRight_eq_extractLsb, BitVec.setWidth_one,
    BitVec.getLsbD_ushiftRight]

/-- R39, R29: the sign field on the 64-bit result port. -/
theorem setWidth_64_s48 (v : Real48) : (s48 v).setWidth 64 = if v.getLsbD 47 then 1 else 0 := by
  rw [s48_eq_ofBool]
  cases v.getLsbD 47 <;> rfl

/-- R28: the sign bit of the operand is bit 47 of the port. -/
theorem getLsbD_47_real48Operand (src : Src) : (real48Operand src).getLsbD 47 = src.getLsbD 47 := by
  simp [real48Operand]

/-- R19, R39: the sign bit is the top bit of the first byte. -/
theorem getLsbD_47_eq_b0 (v : Real48) : v.getLsbD 47 = (toBytes v).b0.getLsbD 7 := by
  simp [toBytes]

/-- R39: the whole effect of XSIGN. -/
theorem exec_xsign_eq (v : Real48) (s : State) :
    exec (.xsign v) s = .next { s with res_o := if v.getLsbD 47 then 1 else 0, err_o := 0b00#2 } := by
  rw [← setWidth_64_s48]; rfl

/-- Settles O10: the sign field is bit 47, of the pattern and of the port. -/
theorem xsignRepliesByItsRule : Obligations.XsignRepliesByItsRule := by
  refine ⟨exec_xsign_eq, getLsbD_47_eq_b0, fun s hop => ?_⟩
  rw [step_of_op_i hop, decode_xsign, exec_xsign_eq, getLsbD_47_real48Operand]

/-! XEXP. -/

/-- R40, R29: the exponent field on the 64-bit result port. -/
theorem setWidth_64_e48 (v : Real48) : (e48 v).setWidth 64 = BitVec.ofNat 64 (v.toNat % 256) := by
  rw [← BitVec.ofNat_toNat, e48_toNat]; rfl

/-- R40: the exponent field of the operand, by masking the port. -/
theorem setWidth_64_e48_real48Operand (src : Src) : (e48 (real48Operand src)).setWidth 64 = src &&& 0xFF#64 := by
  apply BitVec.eq_of_toNat_eq
  rw [toNat_and_low_mask (k := 8) src (by decide), BitVec.toNat_setWidth_of_le (by decide), e48_toNat, real48Operand_toNat]
  omega

/-- R40: the whole effect of XEXP. -/
theorem exec_xexp_eq (v : Real48) (s : State) :
    exec (.xexp v) s = .next { s with res_o := (e48 v).setWidth 64, err_o := 0b00#2 } := rfl

/-- Settles O11: the exponent field is the low byte, of the pattern and of the port. -/
theorem xexpRepliesByItsRule : Obligations.XexpRepliesByItsRule := by
  refine ⟨fun v s => ?_, fun v => (e48_toNat v).symm, fun s hop => ?_⟩
  · rw [exec_xexp_eq, setWidth_64_e48]
  · rw [step_of_op_i hop, decode_xexp, exec_xexp_eq, setWidth_64_e48_real48Operand]

/-! XFRAC. -/

/-- R41, R29: the fraction field on the 64-bit result port, by shifting the pattern and masking off the sign. -/
theorem setWidth_64_f48 (v : Real48) : (f48 v).setWidth 64 = ((v >>> 8) &&& 0x7FFFFFFFFF#48).setWidth 64 := by
  apply BitVec.eq_of_toNat_eq
  rw [BitVec.toNat_setWidth, BitVec.toNat_setWidth, toNat_and_low_mask (k := 39) _ (by decide), f48_toNat,
    BitVec.toNat_ushiftRight, Nat.shiftRight_eq_div_pow]

/-- R41: the whole effect of XFRAC. -/
theorem exec_xfrac_eq (v : Real48) (s : State) :
    exec (.xfrac v) s = .next { s with res_o := (f48 v).setWidth 64, err_o := 0b00#2 } := rfl

/-- Settles O12: the fraction field is the shifted and masked pattern; of the port, `f48_real48Operand`. -/
theorem xfracRepliesByItsRule : Obligations.XfracRepliesByItsRule := by
  refine ⟨fun v s => ?_, fun s hop => ?_⟩
  · rw [exec_xfrac_eq, setWidth_64_f48]
  · rw [step_of_op_i hop, decode_xfrac, exec_xfrac_eq, f48_real48Operand]

end Sys2Proof.Machine
end

section
/-! The sign operations of the surrounding software (R43, R44): negation inverts the sign field and keeps the other two, in Real48
as in double, so it passes through ENCD wherever ENCD keeps the sign (law L-11). -/

namespace Sys2Proof.Machine

/-- R43: negation by fields. -/
theorem neg_eq_pack48 (v : Real48) : Software.neg v = pack48 (~~~ s48 v) (e48 v) (f48 v) := by
  have hmask : 0x800000000000#48 = BitVec.allOnes 1 ++ 0#39 ++ 0#8 := by decide
  calc Software.neg v = pack48 (s48 v) (e48 v) (f48 v) ^^^ 0x800000000000#48 := by rw [pack48_fields]; rfl
    _ = pack48 (~~~ s48 v) (e48 v) (f48 v) := by
      rw [pack48, hmask, BitVec.xor_append, BitVec.xor_append, BitVec.xor_allOnes, BitVec.xor_zero, BitVec.xor_zero,
        pack48]

@[simp] theorem s48_neg (v : Real48) : s48 (Software.neg v) = ~~~ s48 v := by rw [neg_eq_pack48, s48_pack48]
@[simp] theorem e48_neg (v : Real48) : e48 (Software.neg v) = e48 v := by rw [neg_eq_pack48, e48_pack48]
@[simp] theorem f48_neg (v : Real48) : f48 (Software.neg v) = f48 v := by rw [neg_eq_pack48, f48_pack48]

/-- R43: negating twice inverts the sign field twice. -/
theorem neg_involutive : Function.Involutive Software.neg := fun v => by
  rw [neg_eq_pack48 (Software.neg v), s48_neg, e48_neg, f48_neg, BitVec.not_not, pack48_fields]

/-- R43: negation of a packed pattern. -/
theorem neg_pack48 (s : BitVec 1) (e : BitVec 8) (f : BitVec 39) :
    Software.neg (pack48 s e f) = pack48 (~~~ s) e f := by
  rw [neg_eq_pack48, s48_pack48, e48_pack48, f48_pack48]

/-- R11: the inverted sign bit is the other factor. -/
theorem signFactor_not (s : BitVec 1) : signFactor (~~~ s) = - signFactor s := by
  obtain rfl | rfl := BitVec.eq_zero_or_eq_one s
  · simp [signFactor]
  · simp [signFactor]

/-- R43 with R11: negation changes the sign of the value; that of a zero pattern stays zero. -/
theorem value48_neg (v : Real48) : value48 (Software.neg v) = - value48 v := by
  by_cases h0 : e48 v = 0
  · rw [value48_of_zero h0, value48_of_zero ((e48_neg v).trans h0), neg_zero]
  · have hneg : e48 (Software.neg v) ≠ 0 := fun h => h0 ((e48_neg v).symm.trans h)
    rw [value48_of_normal h0, value48_of_normal hneg, s48_neg, e48_neg, f48_neg, signFactor_not, neg_mul, neg_mul]

/-- R13: a double with its sign bit inverted. -/
theorem xor_sign_eq_packDouble (x : Double) :
    x ^^^ 0x8000000000000000#64 = packDouble (~~~ s64 x) (exp64 x) (frac64 x) := by
  have hmask : 0x8000000000000000#64 = BitVec.allOnes 1 ++ 0#11 ++ 0#52 := by decide
  calc x ^^^ 0x8000000000000000#64 = packDouble (s64 x) (exp64 x) (frac64 x) ^^^ 0x8000000000000000#64 := by
        rw [packDouble_fields]
    _ = packDouble (~~~ s64 x) (exp64 x) (frac64 x) := by
      rw [packDouble, hmask, BitVec.xor_append, BitVec.xor_append, BitVec.xor_allOnes, BitVec.xor_zero, BitVec.xor_zero,
        packDouble]

/-- Law L-11: ENCD of the negated double, off zero. -/
theorem encd_xor_sign {x : Double} {v : Real48} (hx : x.extractLsb' 0 63 ≠ 0) (h : encd x = .ok v) :
    encd (x ^^^ 0x8000000000000000#64) = .ok (Software.neg v) := by
  obtain ⟨hz, -⟩ | ⟨-, h895, h1149, rfl⟩ := encd_ok_cases h
  · exact absurd hz hx
  · have hexp : exp64 (x ^^^ 0x8000000000000000#64) = exp64 x := by rw [xor_sign_eq_packDouble, exp64_packDouble]
    rw [encd_of_exponent_in_range (by rwa [hexp]) (by rwa [hexp]), xor_sign_eq_packDouble, s64_packDouble,
      exp64_packDouble, frac64_packDouble, neg_pack48]

/-- Settles O39: the fields of the negated pattern, law L-11 on the ports, and the patterns at zero evaluated. -/
theorem signOperationsOfTheSoftware : Obligations.SignOperationsOfTheSoftware := by
  refine ⟨fun v => ⟨s48_neg v, e48_neg v, f48_neg v, neg_involutive v, value48_neg v, rfl⟩, fun x s t hx hstep hok => ?_,
    by decide, by decide, by decide, by decide, by decide, ?_, by decide⟩
  · obtain ⟨v, hv, -⟩ := res_o_of_success (exec_encd_eq x s) hstep hok
    obtain rfl : s.deliver (encd x) = t := Host.Outcome.next.inj ((exec_encd_eq x s).symm.trans hstep)
    rw [exec_encd_eq, encd_xor_sign hx hv, hv, State.deliver_ok, State.deliver_ok, setWidth_48_of_setWidth_64]
  · have hzero : value48 0 = 0 := value48_of_zero rfl
    rw [value48_neg, hzero, neg_zero]

end Sys2Proof.Machine
end

section
/-! Classification, the named constants and the two orderings of the surrounding software (R45 to R48, R51): all of them are read
off the values of R11. -/

namespace Sys2Proof.Machine

/-- R45: the zero class. -/
theorem classify_eq_ZERO_iff (v : Real48) : Software.classify v = .ZERO ↔ e48 v = 0 := by
  unfold Software.classify
  split
  · next h => exact iff_of_true rfl h
  · next h => exact iff_of_false nofun h

/-- R45: there are two classes. -/
theorem classify_eq_NORMAL_iff (v : Real48) : Software.classify v = .NORMAL ↔ e48 v ≠ 0 := by
  rw [ne_eq, ← classify_eq_ZERO_iff]
  cases Software.classify v with
  | ZERO => exact iff_of_false nofun (fun h => h rfl)
  | NORMAL => exact iff_of_true rfl nofun

/-- R10, R11: the zero patterns are those of value zero, since a normal magnitude is at least MIN. -/
theorem value48_eq_zero_iff (v : Real48) : value48 v = 0 ↔ e48 v = 0 := by
  refine ⟨fun hv => ?_, value48_of_zero⟩
  by_contra h0
  have hpos : (0 : ℚ) < |value48 v| := lt_of_lt_of_le (by positivity) (abs_value48_bounds h0).1
  exact abs_pos.1 hpos hv

/-- Settles O40: the exponent field decides the class and whether the value is zero. -/
theorem classifyReadsTheExponentField : Obligations.ClassifyReadsTheExponentField := fun v =>
  ⟨classify_eq_ZERO_iff v, classify_eq_NORMAL_iff v, (classify_eq_ZERO_iff v).trans (value48_eq_zero_iff v).symm⟩

/-- R38: what the ports show of a decoding to double. -/
theorem exec_decd_of_eq {v : Real48} {x : Double} (h : decd v = x) (s : State) :
    exec (.decd v) s = .next { s with res_o := x, err_o := 0b00#2 } := by
  rw [exec_decd_eq, State.deliver_ok, BitVec.setWidth_eq, h]; rfl

/-- R37: what the ports show of a decoding to single that has a value. -/
theorem exec_decs_of_ok {v : Real48} {x : Single} (h : decs v = .ok x) (s : State) :
    exec (.decs v) s = .next { s with res_o := x.setWidth 64, err_o := 0b00#2 } := by
  rw [exec_decs_eq, h, State.deliver_ok]; rfl

/-- R53, R59: a delivered failure leaves no result. -/
theorem State.result?_deliver_raise {w : Nat} (c : Cause) (s : State) :
    (s.deliver (.raise c : Attempt w)).result? = none :=
  State.result?_of_failure (c.kind s.build).code_ne_zero

/-- Settles O41: the patterns evaluated; the values are those of `rangeOfNormalValues`. -/
theorem namedConstants : Obligations.NamedConstants := by
  refine ⟨by decide, by decide, by decide, by decide, by decide, by decide, value48_smallest, value48_largest,
    value48_epsilon, fun s => ⟨exec_decd_of_eq (by decide) s, exec_decd_of_eq (by decide) s, exec_decd_of_eq (by decide) s,
      exec_decs_of_ok (x := 0x7EFFFFFF#32) (by decide) s, exec_decs_of_ok (x := 0x2C000000#32) (by decide) s,
      _, exec_decs_eq _ s, ?_⟩⟩
  have hunder : decs Software.smallest = .raise .decsUnderflow := by decide
  rw [hunder, State.result?_deliver_raise]

section
variable {d : Config.Dop} (hd : Software.ComparesByValue d) (x y : Real48)
include hd

/-- R51: decoding keeps the values, so native comparison by value compares them. -/
theorem gt_iff_value48 : Software.gt d x y = true ↔ value48 x > value48 y :=
  (hd _ _ _ _ (value64_decd x) (value64_decd y)).1

theorem lt_iff_value48 : Software.lt d x y = true ↔ value48 x < value48 y :=
  (hd _ _ _ _ (value64_decd x) (value64_decd y)).2

end

/-- R46, R47: MIN is below MAX. -/
theorem value48_smallest_lt_largest : value48 Software.smallest < value48 Software.largest := by
  rw [value48_smallest, value48_largest]; norm_num

/-- R46: MIN is above zero. -/
theorem value48_smallest_pos : 0 < value48 Software.smallest := by
  rw [value48_smallest]; positivity

/-- Settles O43: the two decodings are compared; under the named property that is the order of the values, and zero patterns
have one value. -/
theorem orderFollowsTheValues : Obligations.OrderFollowsTheValues := by
  refine ⟨fun d x y s => ⟨_, _, exec_decd_of_eq rfl s, exec_decd_of_eq rfl s, rfl, rfl⟩, fun d hd =>
    ⟨fun x y => ⟨gt_iff_value48 hd x y, lt_iff_value48 hd x y⟩, fun x y hx hy => ?_, ?_, ?_⟩⟩
  · have heq : value48 x = value48 y := (value48_of_zero hx).trans (value48_of_zero hy).symm
    rw [← Bool.not_eq_true, ← Bool.not_eq_true, gt_iff_value48 hd, lt_iff_value48 hd]
    exact ⟨heq.not_gt, heq.not_lt⟩
  · exact (lt_iff_value48 hd _ _).2 value48_smallest_lt_largest
  · have hzero : value48 0 = 0 := value48_of_zero rfl
    rw [gt_iff_value48 hd, hzero]
    exact value48_smallest_pos

end Sys2Proof.Machine
end

section
/-! The arithmetic of the surrounding software (R49, R50): its outcome is that of the closing ENCD, and ENCD fails with
OverflowError only. -/

namespace Sys2Proof.Machine

/-- R36, R56: both causes of ENCD are an OverflowError. -/
theorem kind_of_encd_raise {x : Double} {c : Cause} (h : encd x = .raise c) (b : Config.Build) :
    c.kind b = .overflowError := by
  obtain ⟨-, hok⟩ | ⟨-, -, hok⟩ | ⟨-, -, c', hraise, hkind⟩ := encd_by_pattern x
  · simp [h] at hok
  · simp [h] at hok
  · obtain rfl := Attempt.raise.inj (h.symm.trans hraise)
    exact hkind b

/-- R53: the outcome of ENCD read back from the ports after it. -/
theorem encd_outcome_eq_ite (x : Double) (s : State) :
    (encd x).outcome s.build =
      if (s.deliver (encd x)).err_o = 0b00#2 then .ok ((s.deliver (encd x)).res_o.setWidth 48)
      else .err .overflowError := by
  cases h : encd x with
  | ok v =>
    have hok : (s.deliver (.ok v)).err_o = 0b00#2 := rfl
    rw [if_pos hok, State.deliver_ok, setWidth_48_of_setWidth_64, Attempt.outcome_ok]
  | raise c =>
    have hfail : (s.deliver (.raise c : Attempt 48)).err_o ≠ 0b00#2 := (c.kind s.build).code_ne_zero
    rw [if_neg hfail, Attempt.outcome_raise, kind_of_encd_raise h]

/-- R50: the in-place form on each outcome of the operator. -/
theorem arithAssign_of_ok {b : Config.Build} {d : Config.Dop} {op : Software.ArithOp} {x y v : Real48}
    (h : Software.arith b d op x y = .ok v) : Software.arithAssign b d op x y = some v := by
  rw [Software.arithAssign, h]

theorem arithAssign_of_err {b : Config.Build} {d : Config.Dop} {op : Software.ArithOp} {x y : Real48} {k : ErrKind}
    (h : Software.arith b d op x y = .err k) : Software.arithAssign b d op x y = none := by
  rw [Software.arithAssign, h]

/-- R14: the exponent field of a NaN is all ones. -/
theorem exponent_of_nan {w n : Nat} {exp : BitVec w} {frac : BitVec n} (h : ieeeClass exp frac = .nan) :
    exp = BitVec.allOnes w := by
  unfold ieeeClass at h
  by_contra hones
  rw [if_neg hones] at h
  split_ifs at h

/-- R36: ENCD of any NaN fails. -/
theorem encd_of_nan {x : Double} (h : class64 x = .nan) : encd x = .raise .encdNonfinite := by
  have hexp : exp64 x = 2047 := exponent_of_nan h
  have hzero : ¬ (exp64 x = 0 ∧ frac64 x = 0) := by simp [hexp]
  rw [encd, if_neg hzero, if_pos hexp]

section
variable {d : Config.Dop} {op : Software.ArithOp} {x y : Real48} {a c r : Double}

/-- R49: a call whose native result encodes. -/
theorem arith_eq_ok {v : Real48} (hx : decd x = a) (hy : decd y = c) (hr : Software.native d op a c = r)
    (hv : encd r = .ok v) (b : Config.Build) : Software.arith b d op x y = .ok v := by
  rw [Software.arith, hx, hy, hr, hv, Attempt.outcome_ok]

/-- R49, R50: a call whose native result does not encode. -/
theorem arith_eq_overflowError {cause : Cause} (hx : decd x = a) (hy : decd y = c) (hr : Software.native d op a c = r)
    (he : encd r = .raise cause) (b : Config.Build) : Software.arith b d op x y = .err .overflowError := by
  rw [Software.arith, hx, hy, hr, he, Attempt.outcome_raise, kind_of_encd_raise he]

end

/-- Settles O42: the outcome of the closing ENCD read from the ports; the worked calls step by step. -/
theorem arithmeticIsPromotion : Obligations.ArithmeticIsPromotion := by
  refine ⟨fun d op x y s => ?_, fun b d hd => ?_⟩
  · have harith := encd_outcome_eq_ite (Software.native d op (decd x) (decd y)) s
    refine ⟨_, _, _, exec_decd_of_eq rfl s, exec_decd_of_eq rfl s, exec_encd_eq _ s, harith, ?_⟩
    split
    · next h => exact arithAssign_of_ok (harith.trans (if_pos h))
    · next h => exact arithAssign_of_err (harith.trans (if_neg h))
  · obtain ⟨hadd, hdiv, hnan, hsub, hmax, hmin, heps, hhalf, hneg⟩ := hd
    exact ⟨arith_eq_ok (op := .add) (by decide) (by decide) hadd (by decide) b,
      arith_eq_overflowError (op := .div) (cause := .encdNonfinite) (by decide) (by decide) hdiv (by decide) b,
      arith_eq_overflowError (op := .div) (by decide) (by decide) rfl (encd_of_nan hnan) b,
      arith_eq_ok (op := .sub) (by decide) (by decide) hsub (by decide) b,
      arith_eq_overflowError (op := .mul) (cause := .encdExpRange) (by decide) (by decide) hmax (by decide) b,
      arith_eq_overflowError (op := .mul) (cause := .encdExpRange) (by decide) (by decide) hmin (by decide) b,
      arith_eq_ok (op := .add) (by decide) (by decide) heps (by decide) b,
      arith_eq_ok (op := .add) (by decide) (by decide) hhalf (by decide) b,
      arith_eq_ok (op := .mul) (by decide) (by decide) hneg (by decide) b⟩

end Sys2Proof.Machine
end

section
/-! Failures (R56 to R59): the table of causes, each cause's kind and code, the result a failed transaction does not have, and the
outcome code that is not sticky. -/

namespace Sys2Proof.Machine

/-- R56: the rows of the table for ENCS, and no other cause. -/
theorem encs_eq_raise_iff (x : Single) (c : Cause) : encs x = .raise c ↔
    (c = .encsNonfinite ∧ (exp32 x).toNat = 255) ∨
    (c = .encsSubnormal ∧ (exp32 x).toNat = 0 ∧ (frac32 x).toNat ≠ 0) ∨
    (c = .encsExpRange ∧ (exp32 x).toNat = 254) := by
  obtain ⟨he, hf, h⟩ | ⟨h1, h253, h⟩ | ⟨he, h⟩ | ⟨he, hf, h⟩ | ⟨he, h⟩ := encs_cases x
  · simp [h, he, hf]
  · simp only [h, reduceCtorEq, false_iff]; omega
  · simp [h, he, eq_comm (a := c)]
  · have hf' : (frac32 x).toNat ≠ 0 := fun hn => hf (BitVec.eq_of_toNat_eq hn)
    simp [h, he, hf', eq_comm (a := c)]
  · simp [h, he, eq_comm (a := c)]

/-- R56: the rows of the table for ENCD, and no other cause. -/
theorem encd_eq_raise_iff (x : Double) (c : Cause) : encd x = .raise c ↔
    (c = .encdNonfinite ∧ (exp64 x).toNat = 2047) ∨
    (c = .encdExpRange ∧ ¬ ((exp64 x).toNat = 0 ∧ (frac64 x).toNat = 0) ∧
      ((exp64 x).toNat ≤ 894 ∨ (1150 ≤ (exp64 x).toNat ∧ (exp64 x).toNat ≤ 2046))) := by
  obtain ⟨he, hf, h⟩ | ⟨h895, h1149, h⟩ | ⟨he, h⟩ | ⟨hz, hrange, h⟩ := encd_cases x
  · simp [h, he, hf]
  · simp only [h, reduceCtorEq, false_iff]; omega
  · simp [h, he, eq_comm (a := c)]
  · have hz' : ¬ ((exp64 x).toNat = 0 ∧ (frac64 x).toNat = 0) := fun ⟨he, hf⟩ =>
      hz ⟨BitVec.eq_of_toNat_eq he, BitVec.eq_of_toNat_eq hf⟩
    have hfinite : (exp64 x).toNat ≠ 2047 := by omega
    simp [h, hz', hrange, hfinite, eq_comm (a := c)]

/-- R56: the row of the table for DECS, and no other cause. -/
theorem decs_eq_raise_iff (v : Real48) (c : Cause) : decs v = .raise c ↔
    c = .decsUnderflow ∧ ((e48 v).toNat = 1 ∨ (e48 v).toNat = 2) := by
  obtain ⟨h0, h⟩ | ⟨h12, h⟩ | ⟨h3, h⟩ := decs_cases v
  · simp [h, h0]
  · simp [h, h12, eq_comm (a := c)]
  · simp only [h, reduceCtorEq, false_iff]; omega

/-- R56, R37: the kinds of the table, by cause. -/
theorem Cause.kind_eq_ite (b : Config.Build) (c : Cause) : c.kind b =
    if c = .reservedOp then .illegalOp
    else if c = .decsUnderflow ∧ b.strictRangeError = true then .rangeError
    else .overflowError := by
  cases c with
  | decsUnderflow => simp [Cause.kind]
  | encsNonfinite | encsSubnormal | encsExpRange | encdNonfinite | encdExpRange | reservedOp => simp [Cause.kind]

/-- Settles O14: the three tables of causes read row by row, the kinds, and the codes evaluated. -/
theorem causesAndKindsOfFailure : Obligations.CausesAndKindsOfFailure := by
  refine ⟨fun x => ?_, fun x => ?_, fun v => ?_, rfl, Cause.kind_eq_ite, rfl, rfl, rfl⟩
  · refine ⟨by simp [encs_eq_raise_iff], by simp [encs_eq_raise_iff], by simp [encs_eq_raise_iff], fun c h => ?_⟩
    exact ((encs_eq_raise_iff x c).1 h).imp And.left (Or.imp And.left And.left)
  · refine ⟨by simp [encd_eq_raise_iff], by simp [encd_eq_raise_iff], fun c h => ?_⟩
    exact ((encd_eq_raise_iff x c).1 h).imp And.left And.left
  · exact ⟨by simp [decs_eq_raise_iff], fun c h => ((decs_eq_raise_iff v c).1 h).1⟩

/-- Settles O15: the step leads to the invariant, whose middle part is the zero of a failure; the ports decide the result. -/
theorem failedTransactionHasNoResult : Obligations.FailedTransactionHasNoResult := by
  intro s
  obtain ⟨t, hstep, -, hzero, -, -⟩ := everyStepLeadsToTheInvariant s
  exact ⟨t, hstep, fun hfail => ⟨hzero.resolve_left hfail, State.result?_of_failure hfail⟩, State.result?_of_success⟩

/-- R58: a delivered outcome replaces whatever the outputs showed. -/
theorem State.deliver_of_earlier_outputs {w : Nat} (a : Attempt w) (s : State) (r : Res) (e : ErrCode) :
    ({ s with res_o := r, err_o := e } : State).deliver a = s.deliver a := rfl

/-- Settles O18: the instruction delivers the same attempt from both states. -/
theorem earlierOutputsDoNotMatter : Obligations.EarlierOutputsDoNotMatter := by
  intro i s r e
  obtain ⟨w, a, hexec⟩ := exec_delivers i
  refine ⟨s.deliver a, ?_, hexec s⟩
  rw [hexec, State.deliver_of_earlier_outputs]

end Sys2Proof.Machine
end

section
/-! Reset (R65, log 2): with both inputs at zero the block encodes the zero single, so the reset state is the one its own step
leads to, and the invariant holds there as it does after every step. -/

namespace Sys2Proof.Machine

/-- R35: the zero single on the input ports at reset is the zero operand, which is encoded as zero. -/
theorem encs_operand_of_reset : encs (singleOperand State.reset.src_i) = .ok 0 := by decide

/-- R16, log 2: the outputs at reset are what the block answers to the inputs at reset. -/
theorem step_reset : step State.reset = .next State.reset := by
  have hop : State.reset.op_i = 0b000#3 := rfl
  rw [step_of_op_i hop, decode_encs, exec_encs_eq, encs_operand_of_reset, State.deliver_ok]
  rfl

/-- Settles O21: a step leads to the invariant from any state, and from the reset state it leads to that state. -/
theorem resetMeetsTheInvariant : Obligations.ResetMeetsTheInvariant := by
  obtain ⟨t, hstep, hsettled, hzero, hstrict, -⟩ := everyStepLeadsToTheInvariant State.reset
  obtain rfl : State.reset = t := Host.Outcome.next.inj (step_reset.symm.trans hstep)
  exact ⟨hsettled, hzero, hstrict, rfl⟩

end Sys2Proof.Machine
end
